-- ==== Sys2Proof/Word.lean ====
section
/-! DEFINITION. The words the BMU moves: bytes of the buffer, 32-bit and 64-bit registers (10_state.md R21). -/

namespace Sys2Proof

/-- One byte of the buffer (20_memory.md R51). -/
abbrev Byte := BitVec 8

/-- A 32-bit register or command word. -/
abbrev Word32 := BitVec 32

/-- A 64-bit register. -/
abbrev Word64 := BitVec 64

end Sys2Proof
end

