-- ==== Sys2Proof/Syntax.lean ====
section
/-! DEFINITION. The commands of the BMU: one constructor for each row of the opcode map (30_encoding.md R78, R79).
A name is the row's mnemonic: the operation, then `U` (unsigned), `S` (signed) or `F` (floating point), then the
width in bits. Only UHASH carries an operand in its command word, the bit count K (R76, R84). -/

namespace Sys2Proof

/-- A command. `k` is the K field of UHASH, the source's `bitCount`. -/
inductive Instr where
  /-- FOLD.U8: set every bit at or below the highest set bit of OPA (40_bitops.md R106). -/
  | foldU8
  /-- FOLD.S8: set every bit at or below the highest set bit of OPA (40_bitops.md R107). -/
  | foldS8
  /-- FOLD.U16: set every bit at or below the highest set bit of OPA (40_bitops.md R108). -/
  | foldU16
  /-- FOLD.S16: set every bit at or below the highest set bit of OPA (40_bitops.md R109). -/
  | foldS16
  /-- FOLD.U32: set every bit at or below the highest set bit of OPA (40_bitops.md R110). -/
  | foldU32
  /-- FOLD.S32: set every bit at or below the highest set bit of OPA (40_bitops.md R111). -/
  | foldS32
  /-- FOLD.U64: set every bit at or below the highest set bit of OPA (40_bitops.md R112). -/
  | foldU64
  /-- FOLD.S64: set every bit at or below the highest set bit of OPA (40_bitops.md R113). -/
  | foldS64
  /-- HIGHBIT.U8: isolate the highest set bit of OPA (40_bitops.md R114). -/
  | highbitU8
  /-- HIGHBIT.S8: isolate the highest set bit of OPA (40_bitops.md R115). -/
  | highbitS8
  /-- HIGHBIT.U16: isolate the highest set bit of OPA (40_bitops.md R116). -/
  | highbitU16
  /-- HIGHBIT.S16: isolate the highest set bit of OPA (40_bitops.md R117). -/
  | highbitS16
  /-- HIGHBIT.U32: isolate the highest set bit of OPA (40_bitops.md R118). -/
  | highbitU32
  /-- HIGHBIT.S32: isolate the highest set bit of OPA (40_bitops.md R119). -/
  | highbitS32
  /-- HIGHBIT.U64: isolate the highest set bit of OPA (40_bitops.md R120). -/
  | highbitU64
  /-- HIGHBIT.S64: isolate the highest set bit of OPA (40_bitops.md R121). -/
  | highbitS64
  /-- LOG2.U32: base-2 floor logarithm of OPA (40_bitops.md R122). -/
  | log2U32
  /-- POPCNT.U32: number of set bits of OPA (40_bitops.md R123). -/
  | popcntU32
  /-- POPCNT.S32: number of set bits of OPA (40_bitops.md R124). -/
  | popcntS32
  /-- UHASH.U32: universal hash of OPA, OPB and OPC to `k` bits (40_bitops.md R125). -/
  | uhashU32 (k : Nat)
  /-- UHASH.S32: universal hash of OPA, OPB and OPC to `k` bits (40_bitops.md R126). -/
  | uhashS32 (k : Nat)
  /-- UHASH.U64: universal hash of OPA, OPB and OPC to `k` bits (40_bitops.md R127). -/
  | uhashU64 (k : Nat)
  /-- UHASH.S64: universal hash of OPA, OPB and OPC to `k` bits (40_bitops.md R128). -/
  | uhashS64 (k : Nat)
  /-- SWAP.U16: reverse the bytes of OPA (41_codec.md R153). -/
  | swapU16
  /-- SWAP.S16: reverse the bytes of OPA (41_codec.md R154). -/
  | swapS16
  /-- SWAP.U32: reverse the bytes of OPA (41_codec.md R155). -/
  | swapU32
  /-- SWAP.S32: reverse the bytes of OPA (41_codec.md R156). -/
  | swapS32
  /-- SWAP.U64: reverse the bytes of OPA (41_codec.md R157). -/
  | swapU64
  /-- SWAP.S64: reverse the bytes of OPA (41_codec.md R158). -/
  | swapS64
  /-- WRITE.U8: store OPA big-endian in the buffer (41_codec.md R159). -/
  | writeU8
  /-- WRITE.S8: store OPA big-endian in the buffer (41_codec.md R160). -/
  | writeS8
  /-- WRITE.U16: store OPA big-endian in the buffer (41_codec.md R161). -/
  | writeU16
  /-- WRITE.S16: store OPA big-endian in the buffer (41_codec.md R162). -/
  | writeS16
  /-- WRITE.U32: store OPA big-endian in the buffer (41_codec.md R163). -/
  | writeU32
  /-- WRITE.S32: store OPA big-endian in the buffer (41_codec.md R164). -/
  | writeS32
  /-- WRITE.U64: store OPA big-endian in the buffer (41_codec.md R165). -/
  | writeU64
  /-- WRITE.S64: store OPA big-endian in the buffer (41_codec.md R166). -/
  | writeS64
  /-- WRITE.F32: store OPA big-endian in the buffer (41_codec.md R167). -/
  | writeF32
  /-- WRITE.F64: store OPA big-endian in the buffer (41_codec.md R168). -/
  | writeF64
  /-- READ.U8: load RESULT big-endian from the buffer (41_codec.md R169). -/
  | readU8
  /-- READ.S8: load RESULT big-endian from the buffer (41_codec.md R170). -/
  | readS8
  /-- READ.U16: load RESULT big-endian from the buffer (41_codec.md R171). -/
  | readU16
  /-- READ.S16: load RESULT big-endian from the buffer (41_codec.md R172). -/
  | readS16
  /-- READ.U32: load RESULT big-endian from the buffer (41_codec.md R173). -/
  | readU32
  /-- READ.S32: load RESULT big-endian from the buffer (41_codec.md R174). -/
  | readS32
  /-- READ.U64: load RESULT big-endian from the buffer (41_codec.md R175). -/
  | readU64
  /-- READ.S64: load RESULT big-endian from the buffer (41_codec.md R176). -/
  | readS64
  /-- READ.F32: load RESULT big-endian from the buffer (41_codec.md R177). -/
  | readF32
  /-- READ.F64: load RESULT big-endian from the buffer (41_codec.md R178). -/
  | readF64
deriving DecidableEq, Repr

end Sys2Proof
end

