-- ==== Sys2Proof/Decode.lean ====
section
/-! DEFINITION. The command encoding (30_encoding.md). The decoder compares a word with every row of the opcode map, as R79
says; the encoder packs the fields of R71; the two are written from two tables of the spec and share nothing. -/

namespace Sys2Proof

/-! ### The fields of a command word (R71) -/

/-- OP, bits 3:0: the operation (R73). -/
def opField (w : Word32) : BitVec 4 := w.extractLsb' 0 4

/-- W, bits 5:4: the operand width (R72). -/
def widthField (w : Word32) : BitVec 2 := w.extractLsb' 4 2

/-- S, bit 6: the signed variant (R74). -/
def signedField (w : Word32) : BitVec 1 := w.extractLsb' 6 1

/-- F, bit 7: the floating-point variant (R75). -/
def floatField (w : Word32) : BitVec 1 := w.extractLsb' 7 1

/-- K, bits 13:8: the bit count of UHASH (R76). -/
def countField (w : Word32) : BitVec 6 := w.extractLsb' 8 6

/-- RSV, bits 31:14: reserved, must be zero (R77). -/
def reservedField (w : Word32) : BitVec 18 := w.extractLsb' 14 18

/-! ### Why a word is refused (R201) -/

/-- The name of what makes a word illegal, one constructor for each item of R201's list. All of them raise the same
fault E_ILLEGAL, so the name is not observable (log 11). -/
inductive DecodeReject where
  /-- OP is 0x0, 0x7 or 0xA to 0xF. -/
  | reservedOp
  /-- A bit of 31:14 is set. -/
  | reservedBits
  /-- K is not zero and OP is not UHASH. -/
  | countNotZero
  /-- F = 1 with an OP other than WRITE and READ, with N = 8 or 16, or with S = 1. -/
  | floatVariant
  /-- A width the operation does not support. -/
  | widthUnsupported
  /-- LOG2 with S = 1. -/
  | signedLog2
deriving DecidableEq, Repr

/-- R201, first item: the reserved values of OP. -/
def opReserved (w : Word32) : Bool :=
  decide (opField w = 0x0) || decide (opField w = 0x7) || decide (0xA ≤ opField w)

/-- R75, R201: F = 1 where no floating-point variant exists. -/
def floatIllegal (w : Word32) : Bool :=
  decide (floatField w = 1) &&
    (!(decide (opField w = 0x8) || decide (opField w = 0x9)) || decide (widthField w < 2) || decide (signedField w = 1))

/-- R78, R201: a width the operation does not support. FOLD, HIGHBIT, WRITE and READ have every width. -/
def widthIllegal (w : Word32) : Bool :=
  if opField w = 0x3 ∨ opField w = 0x4 then decide (widthField w ≠ 2)
  else if opField w = 0x5 then decide (widthField w < 2)
  else if opField w = 0x6 then decide (widthField w = 0)
  else false

/-- The name of the first item of R201's list that a word meets. It is asked only of words that no row matches. -/
def rejectReason (w : Word32) : DecodeReject :=
  if opReserved w then .reservedOp
  else if reservedField w ≠ 0 then .reservedBits
  else if countField w ≠ 0 ∧ opField w ≠ 0x5 then .countNotZero
  else if floatIllegal w then .floatVariant
  else if widthIllegal w then .widthUnsupported
  else .signedLog2

/-! ### The opcode map (R78, R79) -/

/-- A row of the opcode map: the word `w` matches when `w & mask = pattern` (R79). `build` makes the command from the
K field, which only the UHASH rows leave free. -/
structure OpcodeRow where
  /-- The row's "match". -/
  pattern : Word32
  /-- The row's "mask". -/
  mask : Word32
  /-- The command of the row. -/
  build : Nat → Instr

/-- The rows of FOLD (R106 to R113). -/
def foldRows : List OpcodeRow :=
  [⟨0x00000001, 0xFFFFFFFF, fun _ => .foldU8⟩,
   ⟨0x00000041, 0xFFFFFFFF, fun _ => .foldS8⟩,
   ⟨0x00000011, 0xFFFFFFFF, fun _ => .foldU16⟩,
   ⟨0x00000051, 0xFFFFFFFF, fun _ => .foldS16⟩,
   ⟨0x00000021, 0xFFFFFFFF, fun _ => .foldU32⟩,
   ⟨0x00000061, 0xFFFFFFFF, fun _ => .foldS32⟩,
   ⟨0x00000031, 0xFFFFFFFF, fun _ => .foldU64⟩,
   ⟨0x00000071, 0xFFFFFFFF, fun _ => .foldS64⟩]

/-- The rows of HIGHBIT (R114 to R121). -/
def highBitRows : List OpcodeRow :=
  [⟨0x00000002, 0xFFFFFFFF, fun _ => .highbitU8⟩,
   ⟨0x00000042, 0xFFFFFFFF, fun _ => .highbitS8⟩,
   ⟨0x00000012, 0xFFFFFFFF, fun _ => .highbitU16⟩,
   ⟨0x00000052, 0xFFFFFFFF, fun _ => .highbitS16⟩,
   ⟨0x00000022, 0xFFFFFFFF, fun _ => .highbitU32⟩,
   ⟨0x00000062, 0xFFFFFFFF, fun _ => .highbitS32⟩,
   ⟨0x00000032, 0xFFFFFFFF, fun _ => .highbitU64⟩,
   ⟨0x00000072, 0xFFFFFFFF, fun _ => .highbitS64⟩]

/-- The rows of LOG2, POPCNT, UHASH (R122 to R128). -/
def wordRows : List OpcodeRow :=
  [⟨0x00000023, 0xFFFFFFFF, fun _ => .log2U32⟩,
   ⟨0x00000024, 0xFFFFFFFF, fun _ => .popcntU32⟩,
   ⟨0x00000064, 0xFFFFFFFF, fun _ => .popcntS32⟩,
   ⟨0x00000025, 0xFFFFC0FF, .uhashU32⟩,
   ⟨0x00000065, 0xFFFFC0FF, .uhashS32⟩,
   ⟨0x00000035, 0xFFFFC0FF, .uhashU64⟩,
   ⟨0x00000075, 0xFFFFC0FF, .uhashS64⟩]

/-- The rows of SWAP (R153 to R158). -/
def swapRows : List OpcodeRow :=
  [⟨0x00000016, 0xFFFFFFFF, fun _ => .swapU16⟩,
   ⟨0x00000056, 0xFFFFFFFF, fun _ => .swapS16⟩,
   ⟨0x00000026, 0xFFFFFFFF, fun _ => .swapU32⟩,
   ⟨0x00000066, 0xFFFFFFFF, fun _ => .swapS32⟩,
   ⟨0x00000036, 0xFFFFFFFF, fun _ => .swapU64⟩,
   ⟨0x00000076, 0xFFFFFFFF, fun _ => .swapS64⟩]

/-- The rows of WRITE (R159 to R168). -/
def writeRows : List OpcodeRow :=
  [⟨0x00000008, 0xFFFFFFFF, fun _ => .writeU8⟩,
   ⟨0x00000048, 0xFFFFFFFF, fun _ => .writeS8⟩,
   ⟨0x00000018, 0xFFFFFFFF, fun _ => .writeU16⟩,
   ⟨0x00000058, 0xFFFFFFFF, fun _ => .writeS16⟩,
   ⟨0x00000028, 0xFFFFFFFF, fun _ => .writeU32⟩,
   ⟨0x00000068, 0xFFFFFFFF, fun _ => .writeS32⟩,
   ⟨0x00000038, 0xFFFFFFFF, fun _ => .writeU64⟩,
   ⟨0x00000078, 0xFFFFFFFF, fun _ => .writeS64⟩,
   ⟨0x000000A8, 0xFFFFFFFF, fun _ => .writeF32⟩,
   ⟨0x000000B8, 0xFFFFFFFF, fun _ => .writeF64⟩]

/-- The rows of READ (R169 to R178). -/
def readRows : List OpcodeRow :=
  [⟨0x00000009, 0xFFFFFFFF, fun _ => .readU8⟩,
   ⟨0x00000049, 0xFFFFFFFF, fun _ => .readS8⟩,
   ⟨0x00000019, 0xFFFFFFFF, fun _ => .readU16⟩,
   ⟨0x00000059, 0xFFFFFFFF, fun _ => .readS16⟩,
   ⟨0x00000029, 0xFFFFFFFF, fun _ => .readU32⟩,
   ⟨0x00000069, 0xFFFFFFFF, fun _ => .readS32⟩,
   ⟨0x00000039, 0xFFFFFFFF, fun _ => .readU64⟩,
   ⟨0x00000079, 0xFFFFFFFF, fun _ => .readS64⟩,
   ⟨0x000000A9, 0xFFFFFFFF, fun _ => .readF32⟩,
   ⟨0x000000B9, 0xFFFFFFFF, fun _ => .readF64⟩]

/-- The 49 rows of the opcode map (R79). -/
def opcodeRows : List OpcodeRow :=
  foldRows ++ highBitRows ++ wordRows ++ swapRows ++ writeRows ++ readRows

/-- R79: a row matches a word. -/
def OpcodeRow.matchesWord (r : OpcodeRow) (w : Word32) : Bool := decide (w &&& r.mask = r.pattern)

/-- `Decode(w)` of R79, total on all words: the command of the row that matches, or the name of why none does. -/
def decode (w : Word32) : Except DecodeReject Instr :=
  match opcodeRows.find? (fun r => r.matchesWord w) with
  | some r => .ok (r.build (countField w).toNat)
  | none => .error (rejectReason w)

/-- The command word whose bits are `w`, of which `nbits` are given and the rest are zero. A command word is the data of
one 32-bit host write, so no byte order lies between its bits and the decoder (20_memory.md R53, R67, log 14). -/
def tableWord (nbits w : Nat) : Word32 := BitVec.ofNat 32 (w % 2 ^ nbits)

/-- What the decoder reads from an instruction of the opcode table given by its bits. -/
def decodeTableWord (nbits w : Nat) : Option Instr := (decode (tableWord nbits w)).toOption

/-! ### The encoder (R71) -/

/-- The values of the fields OP, W, S, F and K of a command word (R71). RSV is zero in every command (R77). -/
structure CommandFields where
  /-- OP (R73). -/
  op : BitVec 4
  /-- W (R72). -/
  width : BitVec 2
  /-- S (R74). -/
  signed : BitVec 1
  /-- F (R75). -/
  float : BitVec 1
  /-- K (R76). -/
  count : BitVec 6
deriving DecidableEq, Repr

/-- R71: `CMD = OP | (W << 4) | (S << 6) | (F << 7) | (K << 8)`. -/
def packFields (f : CommandFields) : Word32 :=
  f.op.setWidth 32 ||| f.width.setWidth 32 <<< 4 ||| f.signed.setWidth 32 <<< 6 ||| f.float.setWidth 32 <<< 7 |||
    f.count.setWidth 32 <<< 8

/-- The fields of each command: OP from R73, W from R72, S and F from its mnemonic (R82), K from UHASH's operand.
A bit count of 64 or more, which no command word holds, gives its low six bits (DESIGN CHOICE, log 16). -/
def commandFields : Instr → CommandFields
  | .foldU8 => ⟨0x1, 0, 0, 0, 0⟩
  | .foldS8 => ⟨0x1, 0, 1, 0, 0⟩
  | .foldU16 => ⟨0x1, 1, 0, 0, 0⟩
  | .foldS16 => ⟨0x1, 1, 1, 0, 0⟩
  | .foldU32 => ⟨0x1, 2, 0, 0, 0⟩
  | .foldS32 => ⟨0x1, 2, 1, 0, 0⟩
  | .foldU64 => ⟨0x1, 3, 0, 0, 0⟩
  | .foldS64 => ⟨0x1, 3, 1, 0, 0⟩
  | .highbitU8 => ⟨0x2, 0, 0, 0, 0⟩
  | .highbitS8 => ⟨0x2, 0, 1, 0, 0⟩
  | .highbitU16 => ⟨0x2, 1, 0, 0, 0⟩
  | .highbitS16 => ⟨0x2, 1, 1, 0, 0⟩
  | .highbitU32 => ⟨0x2, 2, 0, 0, 0⟩
  | .highbitS32 => ⟨0x2, 2, 1, 0, 0⟩
  | .highbitU64 => ⟨0x2, 3, 0, 0, 0⟩
  | .highbitS64 => ⟨0x2, 3, 1, 0, 0⟩
  | .log2U32 => ⟨0x3, 2, 0, 0, 0⟩
  | .popcntU32 => ⟨0x4, 2, 0, 0, 0⟩
  | .popcntS32 => ⟨0x4, 2, 1, 0, 0⟩
  | .uhashU32 k => ⟨0x5, 2, 0, 0, BitVec.ofNat 6 k⟩
  | .uhashS32 k => ⟨0x5, 2, 1, 0, BitVec.ofNat 6 k⟩
  | .uhashU64 k => ⟨0x5, 3, 0, 0, BitVec.ofNat 6 k⟩
  | .uhashS64 k => ⟨0x5, 3, 1, 0, BitVec.ofNat 6 k⟩
  | .swapU16 => ⟨0x6, 1, 0, 0, 0⟩
  | .swapS16 => ⟨0x6, 1, 1, 0, 0⟩
  | .swapU32 => ⟨0x6, 2, 0, 0, 0⟩
  | .swapS32 => ⟨0x6, 2, 1, 0, 0⟩
  | .swapU64 => ⟨0x6, 3, 0, 0, 0⟩
  | .swapS64 => ⟨0x6, 3, 1, 0, 0⟩
  | .writeU8 => ⟨0x8, 0, 0, 0, 0⟩
  | .writeS8 => ⟨0x8, 0, 1, 0, 0⟩
  | .writeU16 => ⟨0x8, 1, 0, 0, 0⟩
  | .writeS16 => ⟨0x8, 1, 1, 0, 0⟩
  | .writeU32 => ⟨0x8, 2, 0, 0, 0⟩
  | .writeS32 => ⟨0x8, 2, 1, 0, 0⟩
  | .writeU64 => ⟨0x8, 3, 0, 0, 0⟩
  | .writeS64 => ⟨0x8, 3, 1, 0, 0⟩
  | .writeF32 => ⟨0x8, 2, 0, 1, 0⟩
  | .writeF64 => ⟨0x8, 3, 0, 1, 0⟩
  | .readU8 => ⟨0x9, 0, 0, 0, 0⟩
  | .readS8 => ⟨0x9, 0, 1, 0, 0⟩
  | .readU16 => ⟨0x9, 1, 0, 0, 0⟩
  | .readS16 => ⟨0x9, 1, 1, 0, 0⟩
  | .readU32 => ⟨0x9, 2, 0, 0, 0⟩
  | .readS32 => ⟨0x9, 2, 1, 0, 0⟩
  | .readU64 => ⟨0x9, 3, 0, 0, 0⟩
  | .readS64 => ⟨0x9, 3, 1, 0, 0⟩
  | .readF32 => ⟨0x9, 2, 0, 1, 0⟩
  | .readF64 => ⟨0x9, 3, 0, 1, 0⟩

/-- The command word of a command (R71, R82). -/
def encode (i : Instr) : Word32 := packFields (commandFields i)

end Sys2Proof
end

