-- ==== Sys2Proof/Config.lean ====
section
/-! DEFINITION. What varies between implementations of the BMU (00_scope.md R6) and what is fixed in every one (R7).
The BMU leaves no result open (70_reset_and_hazards.md R242), so there is no free value here. -/

namespace Sys2Proof

/-- The implementation parameters (00_scope.md R6, 92_eei_decisions.md P1 to P3). All three are OPEN in the spec. They
are fixed for a run and held in the state as plain data, so that a statement about every state is a statement about
every value of them (log 1). -/
structure Params where
  /-- `BUF_CAP`: the capacity of the attached buffer RAM in bytes (10_state.md R39). -/
  bufCap : Nat
  /-- `HOST_LE`: the strap "is host little-endian" (10_state.md R40). No rule reads it (20_memory.md R56). -/
  hostLE : Bool
  /-- `BMU_BASE`: the host-bus address of the aperture (20_memory.md R50). -/
  bmuBase : Nat
deriving DecidableEq, Repr

/-- DESIGN CHOICE (log 1, unsafe): the parameters of `State.reset`. The capacity is the one the spec's test vectors
take (95_test_vectors.md); no rule gives any of the three. -/
def Params.default : Params := { bufCap := 128, hostLE := true, bmuBase := 0 }

end Sys2Proof
end

