-- ==== Sys2Proof/Machine/State.lean ====
section
/-! DEFINITION. The state of the BMU (10_state.md R21), the host's side of a run (70_reset_and_hazards.md R241), and
the state right after power-on reset (R230, R231, R234). -/

namespace Sys2Proof.Machine

/-- The reasons for which the machine stops with a fault: none. The four faults of the BMU are latched in STATUS and the
machine goes on (60_exceptions.md R206, R208), every host transaction completes (70_reset_and_hazards.md R240), and a bus
error is a reply (60_exceptions.md R216). Nobody raises this type, which is safe: nothing is cut short (log 7). -/
inductive Fault where
deriving DecidableEq, Repr

/-- The reasons for which an instruction has no meaning. -/
inductive Refusal where
  /-- Raised by `exec` for an instruction that has no meaning yet; safe, since a run that meets it says nothing more. Every
  instruction has its meaning, so nothing raises it. -/
  | notModelled (mnemonic : String)
deriving DecidableEq, Repr

/-- The registers of the register block, by the names of 10_state.md R21. -/
inductive Reg where
  /-- CMD, R25. -/
  | cmd
  /-- STATUS, R26. -/
  | status
  /-- OPA, R29. -/
  | opa
  /-- OPB, R30. -/
  | opb
  /-- OPC, R31. -/
  | opc
  /-- RESULT, R32. -/
  | result
  /-- START, R33. -/
  | start
  /-- BUFLEN, R34. -/
  | bufLen
  /-- FAULTCMD, R35. -/
  | faultCmd
  /-- CAP, R36. -/
  | cap
deriving DecidableEq, Repr

/-- One line of the host's list (30_encoding.md R83, 70_reset_and_hazards.md R241): a transaction at a host-bus address, of
any width in bits, or an assertion of the reset input between two transactions (R230). -/
inductive HostEvent where
  /-- HostRead of `width` bits at `addr`. -/
  | read (addr width : Nat)
  /-- HostWrite of `data` at `addr`. -/
  | write (addr width : Nat) (data : BitVec width)
  /-- The reset input is asserted. -/
  | reset
deriving DecidableEq, Repr

/-- What the port answers to one transaction. -/
inductive Reply where
  /-- A write that reached a register or a buffer byte, a write the register ignores among them. -/
  | done
  /-- The value of a buffer byte. -/
  | data8 (v : Byte)
  /-- The value of a 32-bit register. -/
  | data32 (v : Word32)
  /-- The value of a 64-bit register. -/
  | data64 (v : Word64)
  /-- `BusError` in answer to a read (60_exceptions.md R216): what the read returned. -/
  | busError
  /-- `BusError` in answer to a write (60_exceptions.md R216). A write returns nothing, so no read shows it (log 6). -/
  | writeBusError
deriving DecidableEq, Repr

/-- The bytes of the buffer that are not zero, by rising address: the canonical form of a sparse byte memory
(10_state.md R39, log 2). -/
abbrev Memory := List Host.Cell

/-- The whole state of one BMU and of the host's run on it. -/
structure State where
  /-- CMD: the last command word accepted (10_state.md R25). -/
  cmd : Word32
  /-- STATUS: the fault latch and its code (R26, R27, R28). -/
  status : Word32
  /-- OPA: operand A (R29). -/
  opa : Word64
  /-- OPB: operand B (R30). -/
  opb : Word64
  /-- OPC: operand C (R31). -/
  opc : Word64
  /-- RESULT: the last result (R32). -/
  result : Word64
  /-- START: the buffer offset, a signed number (R33). -/
  start : Word32
  /-- BUFLEN: the length of the caller's buffer (R34). -/
  bufLen : Word32
  /-- FAULTCMD: the command word that faulted (R35). -/
  faultCmd : Word32
  /-- BUF: the attached buffer RAM (R39). -/
  buf : Memory
  /-- BUF_CAP, which CAP reads as (R36), HOST_LE (R40) and BMU_BASE: fixed for the run (70_reset_and_hazards.md R234). -/
  params : Params
  /-- The model's own: the host events still to come, the input of the run (R241, log 3). -/
  pending : List HostEvent
  /-- The model's own: the index of the current line of the host's list (10_state.md R23, log 5). -/
  txIndex : Nat
  /-- The model's own: the replies so far, oldest first (70_reset_and_hazards.md R241, log 6). -/
  replies : List Reply
deriving DecidableEq, Repr

/-- The launch state (70_reset_and_hazards.md R234): every register as power-on reset leaves it (R230), the parameters and
the launch image of BUF as given (R231), no host event issued yet. -/
def State.launch (p : Params) (image : Memory) : State :=
  { cmd := 0, status := 0, opa := 0, opb := 0, opc := 0, result := 0, start := 0, bufLen := 0, faultCmd := 0,
    buf := image, params := p, pending := [], txIndex := 0, replies := [] }

/-- The machine right after power-on reset. The registers are R230's; the parameters (log 1) and the launch image, all
bytes zero (log 2), are DESIGN CHOICES, unsafe, since the spec leaves them open. -/
def State.reset : State := State.launch Params.default []

end Sys2Proof.Machine
end

