-- ==== Sys2Proof/Machine/Flags.lean ====
section
/-! DEFINITION. The fields of STATUS and the fault codes. The BMU has no condition flags (10_state.md R24): STATUS is all
the status there is. -/

namespace Sys2Proof.Machine

/-- The four faults (60_exceptions.md R200). -/
inductive FaultCode where
  /-- E_ILLEGAL: the command word does not decode (R201). -/
  | illegal
  /-- E_RANGE: UHASH with K above 32 (R202). -/
  | range
  /-- E_NOBUF: WRITE or READ with BUFLEN > BUF_CAP (R203). -/
  | noBuf
  /-- E_BOUNDS: WRITE or READ outside the buffer (R204). -/
  | bounds
deriving DecidableEq, Repr

/-- The number of a fault code (60_exceptions.md R200). -/
def faultNumber : FaultCode → BitVec 4
  | .illegal => 1
  | .range => 2
  | .noBuf => 3
  | .bounds => 4

/-- The value fault entry writes to STATUS: `(code << 4) | 1` (60_exceptions.md R206). -/
def statusWord (c : FaultCode) : Word32 := (faultNumber c).setWidth 32 <<< 4 ||| 1

/-- STATUS.FAULT, bit 0: the fault latch (10_state.md R27). -/
def faultBit (s : State) : Bool := s.status.getLsbD 0

/-- STATUS.CODE, bits 7:4 (10_state.md R28). -/
def statusCode (s : State) : BitVec 4 := s.status.extractLsb' 4 4

end Sys2Proof.Machine
end

