-- ==== Sys2Proof/Machine/Operands.lean ====
section
/-! DEFINITION. How a command reads its fixed operand registers (30_encoding.md R72, R84) and how an N-bit result is
widened into RESULT (R74). -/

namespace Sys2Proof.Machine

/-- `OPA[N-1:0]` (30_encoding.md R72); the higher bits are ignored. -/
def operandA (n : Nat) (s : State) : BitVec n := s.opa.setWidth n

/-- `OPB[N-1:0]`, the source's scalingFactor (10_state.md R30). -/
def operandB (n : Nat) (s : State) : BitVec n := s.opb.setWidth n

/-- `OPC[N-1:0]`, the source's additiveConstant (10_state.md R31). -/
def operandC (n : Nat) (s : State) : BitVec n := s.opc.setWidth n

/-- `sext(START)`, the buffer offset as a signed number (10_state.md R33). -/
def startOffset (s : State) : Int := s.start.toInt

/-- The buffer offset as an index of BUF; a command uses it only where `startOffset` is not negative (20_memory.md R58). -/
def bufStart (s : State) : Nat := (startOffset s).toNat

/-- BUFLEN as an unsigned number (10_state.md R34). -/
def bufferLength (s : State) : Nat := s.bufLen.toNat

/-- S = 0: `zext_64(r)` (30_encoding.md R74). -/
def widenUnsigned {n : Nat} (r : BitVec n) : Word64 := r.setWidth 64

/-- S = 1: `sext_64(r)` (30_encoding.md R74). -/
def widenSigned {n : Nat} (r : BitVec n) : Word64 := r.signExtend 64

end Sys2Proof.Machine
end

