-- ==== Sys2Proof/Machine/Ops.lean ====
section
/-! DEFINITION. The named operations of the BMU: the buffer, the functions of the two components, fault entry, and the
common execution of the commands that produce a value, of UHASH, WRITE and READ. -/

namespace Sys2Proof.Machine

/-! ### The buffer (10_state.md R39, 20_memory.md R51 to R60) -/

/-- What a byte that no cell lists reads as. Any launch image is a list of cells, so this fixes the form of the data and
not an image (log 2). -/
def blankByte : Byte := 0

/-- `MemRead(a, 1)`: the byte `BUF[a]` (00_scope.md R10). Total; no step asks for a byte beyond BUF_CAP (log 15). -/
def Memory.read : Memory → Nat → Byte
  | [], _ => blankByte
  | (a', b) :: rest, a => if a' = a then b else Memory.read rest a

/-- `cell a b` before the cells `rest`, all of them above `a`: listed unless it reads as a blank byte. -/
def Memory.cons (a : Nat) (b : Byte) (rest : Memory) : Memory :=
  if b = blankByte then rest else (a, b) :: rest

/-- `MemWrite(a, 1, v)`: `BUF[a] <- v` (00_scope.md R10), in canonical form. -/
def Memory.write : Memory → Nat → Byte → Memory
  | [], a, b => Memory.cons a b []
  | (a', b') :: rest, a, b =>
    if a < a' then Memory.cons a b ((a', b') :: rest)
    else if a = a' then Memory.cons a b rest
    else (a', b') :: Memory.write rest a b

/-- Every address is at least `lo`, the addresses rise strictly, and no cell holds the blank byte. -/
def Memory.wfFrom : Nat → Memory → Bool
  | _, [] => true
  | lo, (a, b) :: rest => decide (lo ≤ a) && decide (b ≠ blankByte) && Memory.wfFrom (a + 1) rest

/-- The canonical form of the buffer's cells. -/
def Memory.wf (m : Memory) : Bool := Memory.wfFrom 0 m

/-- `StoreBE(s, B, v)` (20_memory.md R54): byte B-1 of `v`, the most significant one, at `s`, and so on down to byte 0 at
`s + B - 1`. -/
def storeBE {n : Nat} (m : Memory) (start : Nat) (v : BitVec n) : Nat → Memory
  | 0 => m
  | b + 1 => storeBE (Memory.write m start (v.extractLsb' (8 * b) 8)) (start + 1) v b

/-- `LoadBE(s, B)` (20_memory.md R55) as an N-bit value: the byte at `s` becomes byte B-1, the most significant one. -/
def loadBE (n : Nat) (m : Memory) (start : Nat) : Nat → BitVec n
  | 0 => 0
  | b + 1 => (Memory.read m start).setWidth n <<< (8 * b) ||| loadBE n m (start + 1) b

/-- `InBounds(B)` (20_memory.md R58): exact integers, and the strict `<` of the reference. -/
def inBounds (b : Nat) (s : State) : Bool :=
  decide (0 ≤ startOffset s) && decide (startOffset s + b < bufferLength s)

/-- `CheckBuffer(B)` (41_codec.md R151): the first fault of the two, E_NOBUF before E_BOUNDS (60_exceptions.md R205), or
none. -/
def checkBuffer (b : Nat) (s : State) : Option FaultCode :=
  if s.params.bufCap < bufferLength s then some .noBuf
  else if inBounds b s then none
  else some .bounds

/-! ### BitOps (40_bitops.md R100 to R104) -/

/-- The loop of `fold_N` (R100) from shift `sh` on: `y <- y | (y >> sh)`, doubling `sh` while it is below N. The first
argument bounds the number of turns. -/
def foldLoop {n : Nat} : Nat → Nat → BitVec n → BitVec n
  | 0, _, y => y
  | fuel + 1, sh, y => if sh < n then foldLoop fuel (2 * sh) (y ||| y >>> sh) else y

/-- `fold_N(x)` (R100). The shift doubles, so N turns are more than enough. -/
def fold {n : Nat} (x : BitVec n) : BitVec n := foldLoop n 1 x

/-- `highbit_N(x)` (R101): `f ^ (f >> 1)` for the folded value, with a logical shift. -/
def highBit {n : Nat} (x : BitVec n) : BitVec n := fold x ^^^ fold x >>> 1

/-- The fixed multiplier of the Log2 hash (00_scope.md R7, 40_bitops.md R102). -/
def deBruijnConstant : Word32 := 0x07C4ACDD

/-- The de Bruijn ROM, 32 entries of 5 bits (10_state.md R37). It is the same at every instant (70 R232), so it is a
constant and no field of the state (log 9). -/
def lut : List (BitVec 5) :=
  [0, 9, 1, 10, 13, 21, 2, 29, 11, 14, 16, 18, 22, 25, 3, 30,
   8, 12, 20, 28, 15, 17, 24, 7, 19, 27, 23, 6, 26, 5, 4, 31]

/-- The index of the ROM for a folded value: the top five bits of the truncated product (40_bitops.md R102). -/
def lutIndex (f : Word32) : Nat := ((f * deBruijnConstant) >>> 27).toNat

/-- `log2_32(x)` (R102), a 5-bit value. -/
def log2 (x : Word32) : BitVec 5 := lut.getD (lutIndex (fold x)) 0

/-- The number of set bits among bits 0 to `i - 1` of x. -/
def bitsSetBelow {n : Nat} (x : BitVec n) : Nat → Nat
  | 0 => 0
  | i + 1 => bitsSetBelow x i + (x.getLsbD i).toNat

/-- `popcount_N(x)` (R103): the exact number of set bits, as an N-bit value. -/
def popCount {n : Nat} (x : BitVec n) : BitVec n := BitVec.ofNat n (bitsSetBelow x n)

/-- `uhash_32(v, a, b, K)` (R104) for K up to 32: the product and the sum wrap, and a shift by 32 gives 0
(00_scope.md R8). -/
def hash32 (v a b : Word32) (k : Nat) : Word32 := (a * v + b) >>> (32 - k)

/-- `uhash_64(v, a, b, K)` (R104) for K up to 32: the low and the high word of the wrapped sum are ORed, then shifted
(90_conflicts.md C5). -/
def hash64 (v a b : Word64) (k : Nat) : Word32 :=
  ((a * v + b).setWidth 32 ||| ((a * v + b) >>> 32).setWidth 32) >>> (32 - k)

/-! ### ByteCodec (41_codec.md R150) -/

/-- The lowest `i` bytes of the swapped value of a `b`-byte x: byte j of the result is byte `b - 1 - j` of x. -/
def swapLow {n : Nat} (x : BitVec n) (b : Nat) : Nat → BitVec n
  | 0 => 0
  | i + 1 => swapLow x b i ||| (x.extractLsb' (8 * (b - 1 - i)) 8).setWidth n <<< (8 * i)

/-- `swap_N(x)` (R150). -/
def swapBytes {n : Nat} (x : BitVec n) : BitVec n := swapLow x (n / 8) (n / 8)

/-! ### Taking a fault (60_exceptions.md R206) -/

/-- `raise Fault(code)` (R206): STATUS and FAULTCMD are written and nothing else changes. The command word being executed
is CMD, which holds it since the host's write was accepted (30_encoding.md R80, log 12). There is no return from a fault: only reset clears
the latch (R209). -/
def raiseFault (c : FaultCode) (s : State) : State :=
  { s with status := statusWord c, faultCmd := s.cmd }

/-! ### Common execution -/

/-- RESULT set to `v` (00_scope.md R10). -/
def setResult (v : Word64) (s : State) : State := { s with result := v }

/-- BUF set to the cells `m`. -/
def setBuf (m : Memory) (s : State) : State := { s with buf := m }

/-- `RESULT <- v`, the end of every command that produces a value (40_bitops.md R105). -/
def writeResult (v : Word64) (s : State) : Host.Outcome State Fault Refusal := .next (setResult v s)

/-- UHASH (40_bitops.md R104): E_RANGE for K above 32, before anything is written; else the 32-bit hash, zero-extended
whatever S is. -/
def hashCommand (k : Nat) (h : Word32) (s : State) : Host.Outcome State Fault Refusal :=
  if 32 < k then .next (raiseFault .range s) else writeResult (widenUnsigned h) s

/-- WRITE of `b` bytes (41_codec.md R151, R159 to R168): the checks, then StoreBE; RESULT is unchanged. -/
def writeCommand {n : Nat} (b : Nat) (v : BitVec n) (s : State) : Host.Outcome State Fault Refusal :=
  match checkBuffer b s with
  | some c => .next (raiseFault c s)
  | none => .next (setBuf (storeBE s.buf (bufStart s) v b) s)

/-- READ of `b` bytes (41_codec.md R151, R169 to R178): the checks, then the widened value `r` that LoadBE gives goes to
RESULT. -/
def readCommand (b : Nat) (r : Word64) (s : State) : Host.Outcome State Fault Refusal :=
  match checkBuffer b s with
  | some c => .next (raiseFault c s)
  | none => writeResult r s

end Sys2Proof.Machine
end

