-- ==== Sys2Proof/Machine/BitOps.lean ====
section
/-! DEFINITION. The BitOps commands (40_bitops.md R105 to R128). Each reads fixed operand registers, computes at its own
width N with no extension of its input (00_scope.md R9, 90_conflicts.md C6), and widens the N-bit result into
RESULT by its S field (30_encoding.md R74). -/

namespace Sys2Proof.Machine

/-- FOLD.U8 (40_bitops.md R106). -/
def execFoldU8 (s : State) : Host.Outcome State Fault Refusal :=
  writeResult (widenUnsigned (fold (operandA 8 s))) s

/-- FOLD.S8 (40_bitops.md R107). -/
def execFoldS8 (s : State) : Host.Outcome State Fault Refusal :=
  writeResult (widenSigned (fold (operandA 8 s))) s

/-- FOLD.U16 (40_bitops.md R108). -/
def execFoldU16 (s : State) : Host.Outcome State Fault Refusal :=
  writeResult (widenUnsigned (fold (operandA 16 s))) s

/-- FOLD.S16 (40_bitops.md R109). -/
def execFoldS16 (s : State) : Host.Outcome State Fault Refusal :=
  writeResult (widenSigned (fold (operandA 16 s))) s

/-- FOLD.U32 (40_bitops.md R110). -/
def execFoldU32 (s : State) : Host.Outcome State Fault Refusal :=
  writeResult (widenUnsigned (fold (operandA 32 s))) s

/-- FOLD.S32 (40_bitops.md R111). -/
def execFoldS32 (s : State) : Host.Outcome State Fault Refusal :=
  writeResult (widenSigned (fold (operandA 32 s))) s

/-- FOLD.U64 (40_bitops.md R112). -/
def execFoldU64 (s : State) : Host.Outcome State Fault Refusal :=
  writeResult (widenUnsigned (fold (operandA 64 s))) s

/-- FOLD.S64 (40_bitops.md R113). -/
def execFoldS64 (s : State) : Host.Outcome State Fault Refusal :=
  writeResult (widenSigned (fold (operandA 64 s))) s

/-- HIGHBIT.U8 (40_bitops.md R114). -/
def execHighbitU8 (s : State) : Host.Outcome State Fault Refusal :=
  writeResult (widenUnsigned (highBit (operandA 8 s))) s

/-- HIGHBIT.S8 (40_bitops.md R115). -/
def execHighbitS8 (s : State) : Host.Outcome State Fault Refusal :=
  writeResult (widenSigned (highBit (operandA 8 s))) s

/-- HIGHBIT.U16 (40_bitops.md R116). -/
def execHighbitU16 (s : State) : Host.Outcome State Fault Refusal :=
  writeResult (widenUnsigned (highBit (operandA 16 s))) s

/-- HIGHBIT.S16 (40_bitops.md R117). -/
def execHighbitS16 (s : State) : Host.Outcome State Fault Refusal :=
  writeResult (widenSigned (highBit (operandA 16 s))) s

/-- HIGHBIT.U32 (40_bitops.md R118). -/
def execHighbitU32 (s : State) : Host.Outcome State Fault Refusal :=
  writeResult (widenUnsigned (highBit (operandA 32 s))) s

/-- HIGHBIT.S32 (40_bitops.md R119). -/
def execHighbitS32 (s : State) : Host.Outcome State Fault Refusal :=
  writeResult (widenSigned (highBit (operandA 32 s))) s

/-- HIGHBIT.U64 (40_bitops.md R120). -/
def execHighbitU64 (s : State) : Host.Outcome State Fault Refusal :=
  writeResult (widenUnsigned (highBit (operandA 64 s))) s

/-- HIGHBIT.S64 (40_bitops.md R121). -/
def execHighbitS64 (s : State) : Host.Outcome State Fault Refusal :=
  writeResult (widenSigned (highBit (operandA 64 s))) s

/-- LOG2.U32 (40_bitops.md R122). -/
def execLog2U32 (s : State) : Host.Outcome State Fault Refusal :=
  writeResult (widenUnsigned (log2 (operandA 32 s))) s

/-- POPCNT.U32 (40_bitops.md R123). -/
def execPopcntU32 (s : State) : Host.Outcome State Fault Refusal :=
  writeResult (widenUnsigned (popCount (operandA 32 s))) s

/-- POPCNT.S32 (40_bitops.md R124). -/
def execPopcntS32 (s : State) : Host.Outcome State Fault Refusal :=
  writeResult (widenSigned (popCount (operandA 32 s))) s

/-- UHASH.U32 (40_bitops.md R125). -/
def execUhashU32 (k : Nat) (s : State) : Host.Outcome State Fault Refusal :=
  hashCommand k (hash32 (operandA 32 s) (operandB 32 s) (operandC 32 s) k) s

/-- UHASH.S32 (40_bitops.md R126). -/
def execUhashS32 (k : Nat) (s : State) : Host.Outcome State Fault Refusal :=
  hashCommand k (hash32 (operandA 32 s) (operandB 32 s) (operandC 32 s) k) s

/-- UHASH.U64 (40_bitops.md R127). -/
def execUhashU64 (k : Nat) (s : State) : Host.Outcome State Fault Refusal :=
  hashCommand k (hash64 (operandA 64 s) (operandB 64 s) (operandC 64 s) k) s

/-- UHASH.S64 (40_bitops.md R128). -/
def execUhashS64 (k : Nat) (s : State) : Host.Outcome State Fault Refusal :=
  hashCommand k (hash64 (operandA 64 s) (operandB 64 s) (operandC 64 s) k) s

end Sys2Proof.Machine
end

