-- ==== Sys2Proof/Machine/ByteCodec.lean ====
section
/-! DEFINITION. The ByteCodec commands SWAP, WRITE and READ (41_codec.md R153 to R178). WRITE and READ check the buffer
before any byte moves (R151); a float variant moves the bit pattern as the unsigned variant does (R152). -/

namespace Sys2Proof.Machine

/-- SWAP.U16 (41_codec.md R153). -/
def execSwapU16 (s : State) : Host.Outcome State Fault Refusal :=
  writeResult (widenUnsigned (swapBytes (operandA 16 s))) s

/-- SWAP.S16 (41_codec.md R154). -/
def execSwapS16 (s : State) : Host.Outcome State Fault Refusal :=
  writeResult (widenSigned (swapBytes (operandA 16 s))) s

/-- SWAP.U32 (41_codec.md R155). -/
def execSwapU32 (s : State) : Host.Outcome State Fault Refusal :=
  writeResult (widenUnsigned (swapBytes (operandA 32 s))) s

/-- SWAP.S32 (41_codec.md R156). -/
def execSwapS32 (s : State) : Host.Outcome State Fault Refusal :=
  writeResult (widenSigned (swapBytes (operandA 32 s))) s

/-- SWAP.U64 (41_codec.md R157). -/
def execSwapU64 (s : State) : Host.Outcome State Fault Refusal :=
  writeResult (widenUnsigned (swapBytes (operandA 64 s))) s

/-- SWAP.S64 (41_codec.md R158). -/
def execSwapS64 (s : State) : Host.Outcome State Fault Refusal :=
  writeResult (widenSigned (swapBytes (operandA 64 s))) s

/-- WRITE.U8 (41_codec.md R159). -/
def execWriteU8 (s : State) : Host.Outcome State Fault Refusal :=
  writeCommand 1 (operandA 8 s) s

/-- WRITE.S8 (41_codec.md R160). -/
def execWriteS8 (s : State) : Host.Outcome State Fault Refusal :=
  writeCommand 1 (operandA 8 s) s

/-- WRITE.U16 (41_codec.md R161). -/
def execWriteU16 (s : State) : Host.Outcome State Fault Refusal :=
  writeCommand 2 (operandA 16 s) s

/-- WRITE.S16 (41_codec.md R162). -/
def execWriteS16 (s : State) : Host.Outcome State Fault Refusal :=
  writeCommand 2 (operandA 16 s) s

/-- WRITE.U32 (41_codec.md R163). -/
def execWriteU32 (s : State) : Host.Outcome State Fault Refusal :=
  writeCommand 4 (operandA 32 s) s

/-- WRITE.S32 (41_codec.md R164). -/
def execWriteS32 (s : State) : Host.Outcome State Fault Refusal :=
  writeCommand 4 (operandA 32 s) s

/-- WRITE.U64 (41_codec.md R165). -/
def execWriteU64 (s : State) : Host.Outcome State Fault Refusal :=
  writeCommand 8 (operandA 64 s) s

/-- WRITE.S64 (41_codec.md R166). -/
def execWriteS64 (s : State) : Host.Outcome State Fault Refusal :=
  writeCommand 8 (operandA 64 s) s

/-- WRITE.F32 (41_codec.md R167). -/
def execWriteF32 (s : State) : Host.Outcome State Fault Refusal :=
  writeCommand 4 (operandA 32 s) s

/-- WRITE.F64 (41_codec.md R168). -/
def execWriteF64 (s : State) : Host.Outcome State Fault Refusal :=
  writeCommand 8 (operandA 64 s) s

/-- READ.U8 (41_codec.md R169). -/
def execReadU8 (s : State) : Host.Outcome State Fault Refusal :=
  readCommand 1 (widenUnsigned (loadBE 8 s.buf (bufStart s) 1)) s

/-- READ.S8 (41_codec.md R170). -/
def execReadS8 (s : State) : Host.Outcome State Fault Refusal :=
  readCommand 1 (widenSigned (loadBE 8 s.buf (bufStart s) 1)) s

/-- READ.U16 (41_codec.md R171). -/
def execReadU16 (s : State) : Host.Outcome State Fault Refusal :=
  readCommand 2 (widenUnsigned (loadBE 16 s.buf (bufStart s) 2)) s

/-- READ.S16 (41_codec.md R172). -/
def execReadS16 (s : State) : Host.Outcome State Fault Refusal :=
  readCommand 2 (widenSigned (loadBE 16 s.buf (bufStart s) 2)) s

/-- READ.U32 (41_codec.md R173). -/
def execReadU32 (s : State) : Host.Outcome State Fault Refusal :=
  readCommand 4 (widenUnsigned (loadBE 32 s.buf (bufStart s) 4)) s

/-- READ.S32 (41_codec.md R174). -/
def execReadS32 (s : State) : Host.Outcome State Fault Refusal :=
  readCommand 4 (widenSigned (loadBE 32 s.buf (bufStart s) 4)) s

/-- READ.U64 (41_codec.md R175). -/
def execReadU64 (s : State) : Host.Outcome State Fault Refusal :=
  readCommand 8 (widenUnsigned (loadBE 64 s.buf (bufStart s) 8)) s

/-- READ.S64 (41_codec.md R176). -/
def execReadS64 (s : State) : Host.Outcome State Fault Refusal :=
  readCommand 8 (widenSigned (loadBE 64 s.buf (bufStart s) 8)) s

/-- READ.F32 (41_codec.md R177). -/
def execReadF32 (s : State) : Host.Outcome State Fault Refusal :=
  readCommand 4 (widenUnsigned (loadBE 32 s.buf (bufStart s) 4)) s

/-- READ.F64 (41_codec.md R178). -/
def execReadF64 (s : State) : Host.Outcome State Fault Refusal :=
  readCommand 8 (widenUnsigned (loadBE 64 s.buf (bufStart s) 8)) s

end Sys2Proof.Machine
end

