-- ==== Sys2Proof/Machine/Dispatch.lean ====
section
/-! DEFINITION. Execution of a decoded command: one meaning for each row of the opcode map (30_encoding.md R80,
"perform the rule named by row.rule"). -/

namespace Sys2Proof.Machine

def exec (i : Instr) (s : State) : Host.Outcome State Fault Refusal :=
  match i with
  | .foldU8 => Sys2Proof.Machine.execFoldU8 s
  | .foldS8 => Sys2Proof.Machine.execFoldS8 s
  | .foldU16 => Sys2Proof.Machine.execFoldU16 s
  | .foldS16 => Sys2Proof.Machine.execFoldS16 s
  | .foldU32 => Sys2Proof.Machine.execFoldU32 s
  | .foldS32 => Sys2Proof.Machine.execFoldS32 s
  | .foldU64 => Sys2Proof.Machine.execFoldU64 s
  | .foldS64 => Sys2Proof.Machine.execFoldS64 s
  | .highbitU8 => Sys2Proof.Machine.execHighbitU8 s
  | .highbitS8 => Sys2Proof.Machine.execHighbitS8 s
  | .highbitU16 => Sys2Proof.Machine.execHighbitU16 s
  | .highbitS16 => Sys2Proof.Machine.execHighbitS16 s
  | .highbitU32 => Sys2Proof.Machine.execHighbitU32 s
  | .highbitS32 => Sys2Proof.Machine.execHighbitS32 s
  | .highbitU64 => Sys2Proof.Machine.execHighbitU64 s
  | .highbitS64 => Sys2Proof.Machine.execHighbitS64 s
  | .log2U32 => Sys2Proof.Machine.execLog2U32 s
  | .popcntU32 => Sys2Proof.Machine.execPopcntU32 s
  | .popcntS32 => Sys2Proof.Machine.execPopcntS32 s
  | .uhashU32 k => Sys2Proof.Machine.execUhashU32 k s
  | .uhashS32 k => Sys2Proof.Machine.execUhashS32 k s
  | .uhashU64 k => Sys2Proof.Machine.execUhashU64 k s
  | .uhashS64 k => Sys2Proof.Machine.execUhashS64 k s
  | .swapU16 => Sys2Proof.Machine.execSwapU16 s
  | .swapS16 => Sys2Proof.Machine.execSwapS16 s
  | .swapU32 => Sys2Proof.Machine.execSwapU32 s
  | .swapS32 => Sys2Proof.Machine.execSwapS32 s
  | .swapU64 => Sys2Proof.Machine.execSwapU64 s
  | .swapS64 => Sys2Proof.Machine.execSwapS64 s
  | .writeU8 => Sys2Proof.Machine.execWriteU8 s
  | .writeS8 => Sys2Proof.Machine.execWriteS8 s
  | .writeU16 => Sys2Proof.Machine.execWriteU16 s
  | .writeS16 => Sys2Proof.Machine.execWriteS16 s
  | .writeU32 => Sys2Proof.Machine.execWriteU32 s
  | .writeS32 => Sys2Proof.Machine.execWriteS32 s
  | .writeU64 => Sys2Proof.Machine.execWriteU64 s
  | .writeS64 => Sys2Proof.Machine.execWriteS64 s
  | .writeF32 => Sys2Proof.Machine.execWriteF32 s
  | .writeF64 => Sys2Proof.Machine.execWriteF64 s
  | .readU8 => Sys2Proof.Machine.execReadU8 s
  | .readS8 => Sys2Proof.Machine.execReadS8 s
  | .readU16 => Sys2Proof.Machine.execReadU16 s
  | .readS16 => Sys2Proof.Machine.execReadS16 s
  | .readU32 => Sys2Proof.Machine.execReadU32 s
  | .readS32 => Sys2Proof.Machine.execReadS32 s
  | .readU64 => Sys2Proof.Machine.execReadU64 s
  | .readS64 => Sys2Proof.Machine.execReadS64 s
  | .readF32 => Sys2Proof.Machine.execReadF32 s
  | .readF64 => Sys2Proof.Machine.execReadF64 s

end Sys2Proof.Machine
end

