-- ==== Sys2Proof/Machine/HostPort.lean ====
section
/-! DEFINITION. The host port: which register or buffer byte a transaction reaches, what each transaction does, and the
reset input (20_memory.md R50, R65; 30_encoding.md R80; 70_reset_and_hazards.md R230). -/

namespace Sys2Proof.Machine

/-! ### The register block (10_state.md R21) -/

/-- The offset of a register in the aperture (R21). -/
def regOffset : Reg → Nat
  | .cmd => 0x000
  | .status => 0x004
  | .opa => 0x008
  | .opb => 0x010
  | .opc => 0x018
  | .result => 0x020
  | .start => 0x028
  | .bufLen => 0x02C
  | .faultCmd => 0x030
  | .cap => 0x034

/-- The width of a register in bits (R21). -/
def regWidth : Reg → Nat
  | .opa | .opb | .opc | .result => 64
  | .cmd | .status | .start | .bufLen | .faultCmd | .cap => 32

/-- The registers in the order of R21. -/
def allRegs : List Reg := [.cmd, .status, .opa, .opb, .opc, .result, .start, .bufLen, .faultCmd, .cap]

/-- The value CAP reads as: `BUF_CAP` (10_state.md R36). A legal capacity is below 2^31, so no bit is lost. -/
def capReg (s : State) : Word32 := BitVec.ofNat 32 s.params.bufCap

/-- A read of a register at its full width (10_state.md R21). -/
def readReg : Reg → State → Reply
  | .cmd, s => .data32 s.cmd
  | .status, s => .data32 s.status
  | .opa, s => .data64 s.opa
  | .opb, s => .data64 s.opb
  | .opc, s => .data64 s.opc
  | .result, s => .data64 s.result
  | .start, s => .data32 s.start
  | .bufLen, s => .data32 s.bufLen
  | .faultCmd, s => .data32 s.faultCmd
  | .cap, s => .data32 (capReg s)

/-! ### What a transaction reaches (20_memory.md R50, R65) -/

/-- A register or a byte of the buffer. -/
inductive PortTarget where
  /-- A register of the register block. -/
  | reg (r : Reg)
  /-- The byte `BUF[a]`. -/
  | byte (a : Nat)
deriving DecidableEq, Repr

/-- Offset of the buffer window in the aperture (20_memory.md R50, R65). -/
def bufWindow : Nat := 0x1000

/-- The register of an offset and a width: both must be the register's own (R50). -/
def regAt (offset width : Nat) : Option Reg :=
  allRegs.find? (fun r => decide (regOffset r = offset) && decide (regWidth r = width))

/-- What a transaction of `width` bits at host-bus address `addr` reaches. None is a bus error: another width, an offset
inside a register, an unmapped offset, a buffer byte at or beyond BUF_CAP, or an address outside the aperture, one below
`BMU_BASE` among them (log 8). -/
def portTarget (p : Params) (addr width : Nat) : Option PortTarget :=
  if addr < p.bmuBase then none
  else if addr - p.bmuBase < bufWindow then (regAt (addr - p.bmuBase) width).map .reg
  else if width = 8 ∧ addr - p.bmuBase - bufWindow < p.bufCap then some (.byte (addr - p.bmuBase - bufWindow))
  else none

/-! ### Transactions -/

/-- The port's answer to one transaction is added to the replies (70_reset_and_hazards.md R241). -/
def logReply (r : Reply) (s : State) : State := { s with replies := s.replies ++ [r] }

/-- The reply is what a read transaction returned: its value or `BusError` (70_reset_and_hazards.md R241 item 1). -/
def isReadReply : Reply → Bool
  | .data8 _ => true
  | .data32 _ => true
  | .data64 _ => true
  | .busError => true
  | .done => false
  | .writeBusError => false

/-- The command word is latched (30_encoding.md R80, `CMD <- w`). -/
def latchCommand (w : Word32) (s : State) : State := { s with cmd := w }

/-- A host write of `w` to CMD (30_encoding.md R80): ignored while the fault latch is set (60_exceptions.md R208); else the
word is latched and executed, or raises E_ILLEGAL. -/
def commandWrite (w : Word32) (s : State) : Host.Outcome State Fault Refusal :=
  if faultBit s then .next s
  else
    match decode w with
    | .ok i => exec i (latchCommand w s)
    | .error _ => .next (raiseFault .illegal (latchCommand w s))

/-- OPA set to `v` (10_state.md R29). -/
def setOpa (v : Word64) (s : State) : State := { s with opa := v }

/-- OPB set to `v` (10_state.md R30). -/
def setOpb (v : Word64) (s : State) : State := { s with opb := v }

/-- OPC set to `v` (10_state.md R31). -/
def setOpc (v : Word64) (s : State) : State := { s with opc := v }

/-- START set to `v` (10_state.md R33). -/
def setStart (v : Word32) (s : State) : State := { s with start := v }

/-- BUFLEN set to `v` (10_state.md R34). -/
def setBufLen (v : Word32) (s : State) : State := { s with bufLen := v }

/-- A host write of `v` to a register (10_state.md R25 to R36, R42). A write to a read-only register is ignored. A 32-bit
register takes the low 32 bits of `v`, which are all there is of a write of its width. -/
def regWrite (r : Reg) (v : Word64) (s : State) : Host.Outcome State Fault Refusal :=
  match r with
  | .cmd => commandWrite (v.setWidth 32) s
  | .opa => .next (setOpa v s)
  | .opb => .next (setOpb v s)
  | .opc => .next (setOpc v s)
  | .start => .next (setStart (v.setWidth 32) s)
  | .bufLen => .next (setBufLen (v.setWidth 32) s)
  | .status => .next s
  | .result => .next s
  | .faultCmd => .next s
  | .cap => .next s

/-- A host byte write `BUF[a] <- v` (20_memory.md R65), accepted whatever BUFLEN and STATUS.FAULT are. -/
def byteWrite (a : Nat) (v : Byte) (s : State) : State := setBuf (Memory.write s.buf a v) s

/-- HostRead (20_memory.md R50, R65): no side effect (R66). -/
def hostRead (addr width : Nat) (s : State) : State :=
  match portTarget s.params addr width with
  | some (.reg r) => logReply (readReg r s) s
  | some (.byte a) => logReply (.data8 (Memory.read s.buf a)) s
  | none => logReply .busError s

/-- HostWrite (20_memory.md R50, R65). The command that a write to CMD executes completes inside it
(30_encoding.md R80). -/
def hostWrite (addr width : Nat) (data : BitVec width) (s : State) : Host.Outcome State Fault Refusal :=
  match portTarget s.params addr width with
  | some (.reg r) => regWrite r (data.setWidth 64) (logReply .done s)
  | some (.byte a) => .next (byteWrite a (data.setWidth 8) (logReply .done s))
  | none => .next (logReply .writeBusError s)

/-- The reset input (70_reset_and_hazards.md R230 to R232): every register at its reset value; BUF and the parameters, and
with them CAP, are untouched. -/
def hardReset (s : State) : State :=
  { s with cmd := 0, status := 0, opa := 0, opb := 0, opc := 0, result := 0, start := 0, bufLen := 0, faultCmd := 0 }

/-- The host moves to the next line of its list (10_state.md R23, log 5). -/
def advance (rest : List HostEvent) (s : State) : State := { s with pending := rest, txIndex := s.txIndex + 1 }

/-- One line of the host's list. -/
def hostEvent (e : HostEvent) (s : State) : Host.Outcome State Fault Refusal :=
  match e with
  | .read addr width => .next (hostRead addr width s)
  | .write addr width data => hostWrite addr width data s
  | .reset => .next (hardReset s)

/-- One step: the next line of the host's list. With none left the BMU is idle and nothing changes
(70_reset_and_hazards.md R233, log 4). -/
def stepHost (s : State) : Host.Outcome State Fault Refusal :=
  match s.pending with
  | [] => .next s
  | e :: rest => hostEvent e (advance rest s)

/-- The host write that presents the command word `w`: 32 bits at the offset of CMD (30_encoding.md R70). -/
def commandEvent (p : Params) (w : Word32) : HostEvent := .write (p.bmuBase + regOffset .cmd) 32 w

/-- The state whose next host event is the write of `w` to CMD, everything else as it is. -/
def presentCommand (w : Word32) (s : State) : State := { s with pending := commandEvent s.params w :: s.pending }

end Sys2Proof.Machine
end

