-- ==== Sys2Proof/Machine/Step.lean ====
section
/-! DEFINITION. One step of the machine: one event of the host (70_reset_and_hazards.md R239). -/

namespace Sys2Proof.Machine

/-- One step (Machine/HostPort.lean, `stepHost`). -/
def step (s : State) : Host.Outcome State Fault Refusal := stepHost s

/-- The BMU fetches nothing: a command exists only as the data of a host write to CMD (20_memory.md R67). So the command
word stands as the host's next event (log 3). -/
def State.withFetchWord (s : State) (nbits w : Nat) : State := presentCommand (tableWord nbits w) s

end Sys2Proof.Machine
end

