-- ==== Sys2Proof/WellFormed.lean ====
section
/-! DEFINITION. Which terms of the syntax stand for a command word, and which parameters the spec allows. -/

namespace Sys2Proof

/-- A bit count that the six bits of the K field can hold, 0 to 63 (30_encoding.md R76, R82). A count of 33 to 63 is
well formed: it assembles, decodes, and faults when it executes. -/
def bitCountFits (k : Nat) : Bool := decide (k < 64)

/-- A command that some command word stands for. Only UHASH carries an operand that could fail to fit. -/
def Instr.wellFormed : Instr → Bool
  | .uhashU32 k => bitCountFits k
  | .uhashS32 k => bitCountFits k
  | .uhashU64 k => bitCountFits k
  | .uhashS64 k => bitCountFits k
  | .foldU8 | .foldS8 | .foldU16 | .foldS16 | .foldU32 | .foldS32 | .foldU64 | .foldS64
  | .highbitU8 | .highbitS8 | .highbitU16 | .highbitS16 | .highbitU32 | .highbitS32 | .highbitU64 | .highbitS64
  | .log2U32 | .popcntU32 | .popcntS32 | .swapU16 | .swapS16 | .swapU32 | .swapS32 | .swapU64
  | .swapS64 | .writeU8 | .writeS8 | .writeU16 | .writeS16 | .writeU32 | .writeS32 | .writeU64
  | .writeS64 | .writeF32 | .writeF64 | .readU8 | .readS8 | .readU16 | .readS16 | .readU32
  | .readS32 | .readU64 | .readS64 | .readF32 | .readF64 => true

/-- The legal values of the implementation parameters (00_scope.md R6): `BUF_CAP` from 1 to 2^31 - 1, `BMU_BASE` a
multiple of 8, `HOST_LE` either way. -/
def Params.legal (p : Params) : Bool :=
  decide (1 ≤ p.bufCap) && decide (p.bufCap < 2 ^ 31) && decide (p.bmuBase % 8 = 0)

end Sys2Proof
end

