-- ==== Sys2Proof/Machine/HostProgram.lean ====
section
/-! DEFINITION. The assembler's mnemonics and the host programs (30_encoding.md R82, R83). -/

namespace Sys2Proof.Machine

/-! ### Mnemonics (R82) -/

/-- OPNAME of R82, by the OP field (R73). -/
def opName (op : BitVec 4) : String :=
  match op.toNat with
  | 0x1 => "FOLD"
  | 0x2 => "HIGHBIT"
  | 0x3 => "LOG2"
  | 0x4 => "POPCNT"
  | 0x5 => "UHASH"
  | 0x6 => "SWAP"
  | 0x8 => "WRITE"
  | 0x9 => "READ"
  | _ => ""

/-- T of R82: `F` for F = 1, else `S` or `U` by the S field. -/
def typeLetter (f : CommandFields) : String :=
  if f.float = 1 then "F" else if f.signed = 1 then "S" else "U"

/-- N of R82, by the W field (R72): 8 << W. -/
def widthName (w : BitVec 2) : String := toString (8 <<< w.toNat)

/-- `OPNAME.TN` (R82). -/
def mnemonicOf (i : Instr) : String :=
  opName (commandFields i).op ++ "." ++ typeLetter (commandFields i) ++ widthName (commandFields i).width

/-- The spelling of a command (R82): its mnemonic, and for UHASH one space and the bit count in decimal. -/
def spelling : Instr → String
  | .uhashU32 k => mnemonicOf (.uhashU32 k) ++ " " ++ toString k
  | .uhashS32 k => mnemonicOf (.uhashS32 k) ++ " " ++ toString k
  | .uhashU64 k => mnemonicOf (.uhashU64 k) ++ " " ++ toString k
  | .uhashS64 k => mnemonicOf (.uhashS64 k) ++ " " ++ toString k
  | i => mnemonicOf i

/-- The commands a row of the opcode map stands for: one, or for UHASH one for each bit count 0 to 63. -/
def rowCommands (r : OpcodeRow) : List Instr :=
  if r.mask = 0xFFFFFFFF then [r.build 0] else (List.range 64).map r.build

/-- The assembler (R82): the command word of a spelling, none where R78 admits no command so spelled. A bit count is
spelled without leading zeros (log 13). -/
def assemble (text : String) : Option Word32 :=
  ((opcodeRows.flatMap rowCommands).find? (fun i => spelling i == text)).map encode

/-! ### Host programs (R83) -/

/-- The types T and N that WRITE and READ share (R82): the suffix `M` of `put` and `get`. -/
inductive CodecType where
  | u8 | s8 | u16 | s16 | u32 | s32 | u64 | s64 | f32 | f64
deriving DecidableEq, Repr

/-- `WRITE.M` (R83). -/
def writeOf : CodecType → Instr
  | .u8 => .writeU8
  | .s8 => .writeS8
  | .u16 => .writeU16
  | .s16 => .writeS16
  | .u32 => .writeU32
  | .s32 => .writeS32
  | .u64 => .writeU64
  | .s64 => .writeS64
  | .f32 => .writeF32
  | .f64 => .writeF64

/-- `READ.M` (R83). -/
def readOf : CodecType → Instr
  | .u8 => .readU8
  | .s8 => .readS8
  | .u16 => .readU16
  | .s16 => .readS16
  | .u32 => .readU32
  | .s32 => .readS32
  | .u64 => .readU64
  | .s64 => .readS64
  | .f32 => .readF32
  | .f64 => .readF64

/-- The types of UHASH (R82). -/
inductive HashType where
  | u32 | s32 | u64 | s64
deriving DecidableEq, Repr

/-- `UHASH.TN k` (R82). -/
def hashOf : HashType → Nat → Instr
  | .u32, k => .uhashU32 k
  | .s32, k => .uhashS32 k
  | .u64, k => .uhashU64 k
  | .s64, k => .uhashS64 k

/-- A line of a host program (R83). A value is taken at the width of the register it is written to (log 13). -/
inductive HostLine where
  /-- `wr REG, v` -/
  | wr (r : Reg) (v : Nat)
  /-- `rd REG` -/
  | rd (r : Reg)
  /-- `wrb a, v` -/
  | wrb (a : Nat) (v : Byte)
  /-- `rdb a` -/
  | rdb (a : Nat)
  /-- `cmd M` -/
  | cmd (i : Instr)
  /-- `reset` -/
  | reset
  /-- The pseudo-instruction `op M, a`. -/
  | op (i : Instr) (a : Nat)
  /-- The pseudo-instruction `hash UHASH.TN k, a, b, c`. -/
  | hash (t : HashType) (k a b c : Nat)
  /-- The pseudo-instruction `put M, s, v`. -/
  | put (t : CodecType) (s v : Nat)
  /-- The pseudo-instruction `get M, s`. -/
  | get (t : CodecType) (s : Nat)
deriving DecidableEq, Repr

/-- HostWrite of `v` to a register at its width. -/
def wrEvent (p : Params) (r : Reg) (v : Nat) : HostEvent :=
  .write (p.bmuBase + regOffset r) (regWidth r) (BitVec.ofNat (regWidth r) v)

/-- HostRead of a register at its width. -/
def rdEvent (p : Params) (r : Reg) : HostEvent := .read (p.bmuBase + regOffset r) (regWidth r)

/-- HostWrite to CMD of the encoding of a command (R83). DESIGN CHOICE (log 16): a UHASH term with a bit count of 64 or
more, which R82's assembler refuses, has no expansion in the spec; here its word holds the count modulo 64. -/
def cmdEvent (p : Params) (i : Instr) : HostEvent := commandEvent p (encode i)

/-- The host events a line stands for (R83). A `cmd`, `op` or `hash` line whose bit count is 64 or more has no meaning in
R83; what it becomes is the model's choice (log 16). -/
def expandLine (p : Params) : HostLine → List HostEvent
  | .wr r v => [wrEvent p r v]
  | .rd r => [rdEvent p r]
  | .wrb a v => [.write (p.bmuBase + bufWindow + a) 8 v]
  | .rdb a => [.read (p.bmuBase + bufWindow + a) 8]
  | .cmd i => [cmdEvent p i]
  | .reset => [.reset]
  | .op i a => [wrEvent p .opa a, cmdEvent p i]
  | .hash t k a b c => [wrEvent p .opa a, wrEvent p .opb b, wrEvent p .opc c, cmdEvent p (hashOf t k)]
  | .put t s v => [wrEvent p .start s, wrEvent p .opa v, cmdEvent p (writeOf t)]
  | .get t s => [wrEvent p .start s, cmdEvent p (readOf t), rdEvent p .result]

/-- The launch of a host program: the launch state (70_reset_and_hazards.md R234) with the program's events to come. -/
def State.load (program : List HostLine) (s : State) : State :=
  { s with pending := program.flatMap (expandLine s.params) }

end Sys2Proof.Machine
end

