-- ==== Sys2Proof/Safety.lean ====
section
/-! DEFINITION. What a legal state is, what can be observed of a run, and the words the claims use for the meaning of the
commands: closed forms and field lists of the spec, written without the machine's own loops. -/

namespace Sys2Proof.Machine

/-! ### Legal states -/

/-- The legal values of STATUS (10_state.md R26). -/
def statusLegal (s : State) : Bool :=
  decide (s.status = 0x00) || decide (s.status = 0x11) || decide (s.status = 0x21) || decide (s.status = 0x31) ||
    decide (s.status = 0x41)

/-- FAULTCMD is 0 while FAULT = 0 (10_state.md R35), and with FAULT = 1 it is the word that faulted, which CMD keeps
(60_exceptions.md R206, R208). -/
def latchConsistent (s : State) : Bool :=
  if faultBit s then decide (s.faultCmd = s.cmd) else decide (s.faultCmd = 0)

/-- Every cell lies within the capacity: BUF has no other byte (10_state.md R39). -/
def bufferInCapacity (s : State) : Bool := s.buf.all (fun c => decide (c.1 < s.params.bufCap))

/-- The invariant of the machine: legal parameters, a legal STATUS, a consistent fault latch, the buffer in canonical form
and within its capacity. -/
def invariant (s : State) : Bool :=
  s.params.legal && statusLegal s && latchConsistent s && Memory.wf s.buf && bufferInCapacity s

/-! ### Runs and what is observed of them (70_reset_and_hazards.md R241) -/

/-- The observable outcome of a run (R241). -/
structure RunOutcome where
  /-- The value each read returned, in order, or `BusError` (60_exceptions.md R216): one entry for each read. -/
  reads : List Reply
  /-- The final value of every register of 10_state.md R21, as a host read gives it. -/
  registers : List Reply
  /-- The final image of BUF. -/
  image : List Byte
deriving DecidableEq, Repr

/-- The outcome, of a run that ends in `s` (R241). -/
def outcomeOf (s : State) : RunOutcome :=
  { reads := s.replies.filter isReadReply,
    registers := allRegs.map (fun r => readReg r s),
    image := (List.range s.params.bufCap).map (Memory.read s.buf) }

/-- The host event is a read transaction. -/
def isReadEvent : HostEvent → Bool
  | .read _ _ => true
  | .write _ _ _ => false
  | .reset => false

/-- `k` steps of the machine (Laws/Step.lean, `core_run_eq_runSteps`: the same as the host's run of the core). -/
def runSteps : Nat → State → Host.Outcome State Fault Refusal
  | 0, s => .next s
  | k + 1, s =>
    match step s with
    | .next t => runSteps k t
    | .fault r => .fault r
    | .refused r => .refused r

/-- The run over the host's whole list (R241): as many steps as it has lines. -/
def runToEnd (s : State) : Host.Outcome State Fault Refusal := runSteps s.pending.length s

/-- The state with the HOST_LE strap at `b` (10_state.md R40). -/
def withHostLE (b : Bool) (s : State) : State := { s with params := { s.params with hostLE := b } }

/-- The state as the host's next line leaves it before any effect on the BMU: the line is taken, and `r` is answered. -/
def afterReply (r : Reply) (rest : List HostEvent) (s : State) : State :=
  { s with pending := rest, txIndex := s.txIndex + 1, replies := s.replies ++ [r] }

/-! ### Accesses -/

/-- A WRITE or READ of `b` bytes passes both checks (41_codec.md R151): the buffer exists (20_memory.md R59) and the
access is in bounds (R58). -/
def accessAllowed (b : Nat) (s : State) : Prop :=
  s.bufLen.toNat ≤ s.params.bufCap ∧ 0 ≤ s.start.toInt ∧ s.start.toInt + b < s.bufLen.toNat

/-- The buffer exists and the access is out of bounds (60_exceptions.md R204). -/
def accessOutOfBounds (b : Nat) (s : State) : Prop :=
  s.bufLen.toNat ≤ s.params.bufCap ∧ (s.start.toInt < 0 ∨ s.bufLen.toNat ≤ s.start.toInt + b)

/-- The number of bytes a command moves to or from the buffer; none for a command that does not access it. -/
def accessBytes : Instr → Option Nat
  | .writeU8 | .writeS8 | .readU8 | .readS8 => some 1
  | .writeU16 | .writeS16 | .readU16 | .readS16 => some 2
  | .writeU32 | .writeS32 | .writeF32 | .readU32 | .readS32 | .readF32 => some 4
  | .writeU64 | .writeS64 | .writeF64 | .readU64 | .readS64 | .readF64 => some 8
  | .foldU8 | .foldS8 | .foldU16 | .foldS16 | .foldU32 | .foldS32 | .foldU64 | .foldS64 => none
  | .highbitU8 | .highbitS8 | .highbitU16 | .highbitS16 | .highbitU32 | .highbitS32 | .highbitU64 | .highbitS64 => none
  | .log2U32 | .popcntU32 | .popcntS32 => none
  | .uhashU32 _ | .uhashS32 _ | .uhashU64 _ | .uhashS64 _ => none
  | .swapU16 | .swapS16 | .swapU32 | .swapS32 | .swapU64 | .swapS64 => none

/-- The bit count of a UHASH command; none for every other command. -/
def bitCount : Instr → Option Nat
  | .uhashU32 k | .uhashS32 k | .uhashU64 k | .uhashS64 k => some k
  | .foldU8 | .foldS8 | .foldU16 | .foldS16 | .foldU32 | .foldS32 | .foldU64 | .foldS64 => none
  | .highbitU8 | .highbitS8 | .highbitU16 | .highbitS16 | .highbitU32 | .highbitS32 | .highbitU64 | .highbitS64 => none
  | .log2U32 | .popcntU32 | .popcntS32 => none
  | .swapU16 | .swapS16 | .swapU32 | .swapS32 | .swapU64 | .swapS64 => none
  | .writeU8 | .writeS8 | .writeU16 | .writeS16 | .writeU32 | .writeS32 | .writeU64 | .writeS64 => none
  | .writeF32 | .writeF64 => none
  | .readU8 | .readS8 | .readU16 | .readS16 | .readU32 | .readS32 | .readU64 | .readS64 | .readF32 | .readF64 => none

/-- The command stores to the buffer and leaves RESULT alone: the WRITE family (10_state.md R32). -/
def isWrite : Instr → Bool
  | .writeU8 | .writeS8 | .writeU16 | .writeS16 | .writeU32 | .writeS32 | .writeU64 | .writeS64 => true
  | .writeF32 | .writeF64 => true
  | .foldU8 | .foldS8 | .foldU16 | .foldS16 | .foldU32 | .foldS32 | .foldU64 | .foldS64 => false
  | .highbitU8 | .highbitS8 | .highbitU16 | .highbitS16 | .highbitU32 | .highbitS32 | .highbitU64 | .highbitS64 => false
  | .log2U32 | .popcntU32 | .popcntS32 => false
  | .uhashU32 _ | .uhashS32 _ | .uhashU64 _ | .uhashS64 _ => false
  | .swapU16 | .swapS16 | .swapU32 | .swapS32 | .swapU64 | .swapS64 => false
  | .readU8 | .readS8 | .readU16 | .readS16 | .readU32 | .readS32 | .readU64 | .readS64 | .readF32 | .readF64 => false

/-! ### Closed forms -/

/-- `fold(x)` in closed form (40_bitops.md R100): 0 for 0, else `2^(msb(x)+1) - 1`. -/
def foldValue (x : Nat) : Nat := if x = 0 then 0 else 2 ^ (Nat.log2 x + 1) - 1

/-- `highbit(x)` in closed form (R101): 0 for 0, else `2^msb(x)`. -/
def highBitValue (x : Nat) : Nat := if x = 0 then 0 else 2 ^ Nat.log2 x

/-- The number of set bits among the lowest 32 of x (R103). -/
def setBits32 (x : Nat) : Nat := ((List.range 32).filter (fun i => x.testBit i)).length

/-- `uhash_32` on numbers (R104): the sum reduced modulo 2^32, its top K bits. -/
def hash32Value (v a b k : Nat) : Nat := (a * v + b) % 2 ^ 32 / 2 ^ (32 - k)

/-- `uhash_64` on numbers (R104, 90_conflicts.md C5): the sum reduced modulo 2^64, its halves ORed, the top K bits of
that. -/
def hash64Value (v a b k : Nat) : Nat :=
  ((a * v + b) % 2 ^ 64 % 2 ^ 32 ||| (a * v + b) % 2 ^ 64 / 2 ^ 32) / 2 ^ (32 - k)

/-- The number that the `b` bytes from `start` spell, the first one most significant (20_memory.md R55). -/
def bigEndianValue (m : Memory) (start b : Nat) : Nat :=
  ((List.range b).map (fun i => (Memory.read m (start + i)).toNat)).foldl (fun acc x => 256 * acc + x) 0

/-- Byte `i` of a 64-bit value, byte 0 the least significant. -/
def byteOf (v : Word64) (i : Nat) : Byte := BitVec.ofNat 8 (v.toNat / 256 ^ i)

/-! ### Legal and illegal command words -/

/-- The legal combinations of the fields (30_encoding.md R78), row by row, with the reserved bits zero (R77). -/
def legalCombination (w : Word32) : Bool :=
  decide (reservedField w = 0) &&
    ((decide (opField w = 0x1) && decide (floatField w = 0) && decide (countField w = 0)) ||
     (decide (opField w = 0x2) && decide (floatField w = 0) && decide (countField w = 0)) ||
     (decide (opField w = 0x3) && decide (widthField w = 2) && decide (signedField w = 0) && decide (floatField w = 0) &&
       decide (countField w = 0)) ||
     (decide (opField w = 0x4) && decide (widthField w = 2) && decide (floatField w = 0) && decide (countField w = 0)) ||
     (decide (opField w = 0x5) && (decide (widthField w = 2) || decide (widthField w = 3)) && decide (floatField w = 0)) ||
     (decide (opField w = 0x6) && decide (widthField w ≠ 0) && decide (floatField w = 0) && decide (countField w = 0)) ||
     ((decide (opField w = 0x8) || decide (opField w = 0x9)) && decide (countField w = 0) &&
       (decide (floatField w = 0) ||
        ((decide (widthField w = 2) || decide (widthField w = 3)) && decide (signedField w = 0)))))

/-- The list of the illegal words (60_exceptions.md R201), item by item. -/
def illegalWord (w : Word32) : Prop :=
  (opField w = 0x0 ∨ opField w = 0x7 ∨ opField w = 0xA ∨ opField w = 0xB ∨ opField w = 0xC ∨ opField w = 0xD ∨
    opField w = 0xE ∨ opField w = 0xF) ∨
  reservedField w ≠ 0 ∨
  (countField w ≠ 0 ∧ opField w ≠ 0x5) ∨
  (floatField w = 1 ∧ ((opField w ≠ 0x8 ∧ opField w ≠ 0x9) ∨ (widthField w = 0 ∨ widthField w = 1) ∨ signedField w = 1)) ∨
  ((opField w = 0x3 ∧ widthField w ≠ 2) ∨ (opField w = 0x4 ∧ widthField w ≠ 2) ∨
    (opField w = 0x5 ∧ (widthField w = 0 ∨ widthField w = 1)) ∨ (opField w = 0x6 ∧ widthField w = 0)) ∨
  (opField w = 0x3 ∧ signedField w = 1)

end Sys2Proof.Machine
end

