-- ==== Sys2Proof/Certificates/Slice0/Obligations.lean ====
section
/-! DEFINITION. The statements for the provers. Each docstring names the rule of the spec it formalises. The words used
for the meaning of the commands (closed forms, field lists, observed outcomes) are those of Sys2Proof/Safety.lean. -/

open Sys2Proof Sys2Proof.Machine

/-- The encoder packs the fields of 30_encoding.md R71; the decoder searches the rows of R79. -/
def Obligations.DecodeOfEncodeIsTheCommand : Prop :=
  ∀ i : Instr, i.wellFormed = true → decode (encode i) = .ok i

/-- Each legal word has one meaning, and no bit of it is ignored (30_encoding.md R77, R79). -/
def Obligations.EncodeOfDecodeIsTheWord : Prop :=
  ∀ (w : Word32) (i : Instr), decode w = .ok i → i.wellFormed = true ∧ encode i = w

/-- 30_encoding.md R78, the table written as `legalCombination`. -/
def Obligations.LegalWordsAreTheCombinations : Prop :=
  ∀ w : Word32, (∃ i, decode w = .ok i) ↔ legalCombination w = true

/-- 30_encoding.md R79. The rows of a family are told by the OP field of their pattern (R73). -/
def Obligations.ExactlyOneRowMatches : Prop :=
  (∀ w : Word32, (opcodeRows.filter (fun r => r.matchesWord w)).length = if legalCombination w then 1 else 0) ∧
  (∀ r ∈ opcodeRows, ∀ w : Word32, w &&& r.mask = r.pattern → decode w = .ok (r.build (countField w).toNat)) ∧
  (∀ w : Word32, (∀ r ∈ opcodeRows, w &&& r.mask ≠ r.pattern) → ∃ e, decode w = .error e) ∧
  opcodeRows.length = 49 ∧
  ([0x1, 0x2, 0x3, 0x4, 0x5, 0x6, 0x8, 0x9] : List (BitVec 4)).map
      (fun op => (opcodeRows.filter (fun r => decide (opField r.pattern = op))).length) = [8, 8, 1, 2, 4, 6, 10, 10] ∧
  ∀ r ∈ opcodeRows, r.mask = if opField r.pattern = 0x5 then 0xFFFFC0FF else 0xFFFFFFFF

/-- Bits 31:14 RSV, 13:8 K, 7 F, 6 S, 5:4 W, 3:0 OP (30_encoding.md R71). -/
def Obligations.SampleWordsDecode : Prop :=
  decode (0#18 ++ 0#6 ++ 0#1 ++ 1#1 ++ 0#2 ++ 0x1#4) = .ok .foldS8 ∧
  decode (0#18 ++ 0#6 ++ 0#1 ++ 0#1 ++ 3#2 ++ 0x2#4) = .ok .highbitU64 ∧
  decode (0#18 ++ 0#6 ++ 0#1 ++ 0#1 ++ 2#2 ++ 0x3#4) = .ok .log2U32 ∧
  decode (0#18 ++ 0#6 ++ 0#1 ++ 1#1 ++ 2#2 ++ 0x4#4) = .ok .popcntS32 ∧
  decode (0#18 ++ 16#6 ++ 0#1 ++ 0#1 ++ 2#2 ++ 0x5#4) = .ok (.uhashU32 16) ∧
  decode (0#18 ++ 0#6 ++ 0#1 ++ 0#1 ++ 1#2 ++ 0x6#4) = .ok .swapU16 ∧
  decode (0#18 ++ 0#6 ++ 1#1 ++ 0#1 ++ 2#2 ++ 0x8#4) = .ok .writeF32 ∧
  decode (0#18 ++ 0#6 ++ 0#1 ++ 1#1 ++ 0#2 ++ 0x9#4) = .ok .readS8

/-- The examples of 30_encoding.md R82, and three spellings it refuses: LOG2.U16, UHASH.U32, UHASH.U32 64. -/
def Obligations.MnemonicsAssemble : Prop :=
  assemble "FOLD.U8" = some 0x00000001 ∧ assemble "FOLD.S64" = some 0x00000071 ∧ assemble "LOG2.U32" = some 0x00000023 ∧
  assemble "POPCNT.S32" = some 0x00000064 ∧ assemble "UHASH.U32 16" = some 0x00001025 ∧
  assemble "SWAP.U16" = some 0x00000016 ∧ assemble "WRITE.F32" = some 0x000000A8 ∧
  assemble "READ.S8" = some 0x00000049 ∧ assemble "UHASH.U32 33" = some 0x00002125 ∧ assemble "LOG2.U16" = none ∧
  assemble "UHASH.U32" = none ∧ assemble "UHASH.U32 64" = none

/-- 30_encoding.md R83. For a value of 2^N or more (taken modulo 2^N, log 13) and a bit count of 64 or more (taken modulo 64 by `encode`, log 16) it says the model's choice. -/
def Obligations.HostLinesExpand : Prop :=
  ∀ p : Params,
  (∀ r v, expandLine p (.wr r v) = [.write (p.bmuBase + regOffset r) (regWidth r) (BitVec.ofNat (regWidth r) v)]) ∧
  (∀ r, expandLine p (.rd r) = [.read (p.bmuBase + regOffset r) (regWidth r)]) ∧
  (∀ a v, expandLine p (.wrb a v) = [.write (p.bmuBase + 0x1000 + a) 8 v]) ∧
  (∀ a, expandLine p (.rdb a) = [.read (p.bmuBase + 0x1000 + a) 8]) ∧
  (∀ i, expandLine p (.cmd i) = [.write p.bmuBase 32 (encode i)]) ∧
  expandLine p .reset = [.reset] ∧
  (∀ i a, expandLine p (.op i a) = expandLine p (.wr .opa a) ++ expandLine p (.cmd i)) ∧
  (∀ t k a b c, expandLine p (.hash t k a b c) =
    expandLine p (.wr .opa a) ++ expandLine p (.wr .opb b) ++ expandLine p (.wr .opc c) ++
      expandLine p (.cmd (hashOf t k))) ∧
  (∀ t a v, expandLine p (.put t a v) =
    expandLine p (.wr .start a) ++ expandLine p (.wr .opa v) ++ expandLine p (.cmd (writeOf t))) ∧
  (∀ t a, expandLine p (.get t a) = expandLine p (.wr .start a) ++ expandLine p (.cmd (readOf t)) ++
    expandLine p (.rd .result))

/-- 30_encoding.md R80. `afterReply .done rest s` is s with the event taken and answered, all of the BMU as it was. -/
def Obligations.CommandWriteExecutesTheWord : Prop :=
  ∀ (s : State) (w : Word32) (rest : List HostEvent), s.pending = .write s.params.bmuBase 32 w :: rest →
  (faultBit s = true → step s = .next (afterReply .done rest s)) ∧
  (faultBit s = false → ∀ i, decode w = .ok i → step s = exec i { s with pending := rest, txIndex := s.txIndex + 1, replies := s.replies ++ [.done], cmd := w }) ∧
  (faultBit s = false → ∀ e, decode w = .error e →
    step s = .next { s with pending := rest, txIndex := s.txIndex + 1, replies := s.replies ++ [.done], cmd := w, status := 0x11, faultCmd := w })

/-- 60_exceptions.md R201, its list written as `illegalWord`. -/
def Obligations.IllegalWordsRaiseIllegal : Prop :=
  (∀ (s : State) (w : Word32) (rest : List HostEvent), faultBit s = false → s.pending = .write s.params.bmuBase 32 w :: rest →
    ∃ t, step s = .next t ∧ (t.status = 0x11 ↔ illegalWord w)) ∧
  (∀ w : Word32, (∃ e, decode w = .error e) ↔ illegalWord w) ∧ illegalWord 0

/-- 60_exceptions.md R203 to R206. The four conditions exclude each other, which is the priority of R205. -/
def Obligations.FaultCausesAndEntry : Prop :=
  ∀ (s : State) (w : Word32) (rest : List HostEvent), faultBit s = false → s.pending = .write s.params.bmuBase 32 w :: rest →
  ∃ t, step s = .next t ∧
    (faultBit t = true → ∃ code ∈ ([1, 2, 3, 4] : List Word32),
      t = { s with pending := rest, txIndex := s.txIndex + 1, replies := s.replies ++ [.done], cmd := w, status := code <<< 4 ||| 1, faultCmd := w }) ∧
    (t.status = 0x11 ↔ ∃ e, decode w = .error e) ∧
    (t.status = 0x21 ↔ ∃ i k, decode w = .ok i ∧ bitCount i = some k ∧ 32 < k) ∧
    (t.status = 0x31 ↔ ∃ i b, decode w = .ok i ∧ accessBytes i = some b ∧ s.params.bufCap < s.bufLen.toNat) ∧
    (t.status = 0x41 ↔ ∃ i b, decode w = .ok i ∧ accessBytes i = some b ∧ accessOutOfBounds b s)

/-- 60_exceptions.md R208. -/
def Obligations.FaultedUnitIgnoresCommands : Prop :=
  ∀ s : State, faultBit s = true →
  (∀ w rest, s.pending = .write s.params.bmuBase 32 w :: rest → step s = .next (afterReply .done rest s)) ∧
  (∀ r rest, s.pending = .read (s.params.bmuBase + regOffset r) (regWidth r) :: rest →
    step s = .next (afterReply (readReg r s) rest s)) ∧
  (∀ v rest, s.pending = .write (s.params.bmuBase + 0x008) 64 v :: rest →
    step s = .next { s with pending := rest, txIndex := s.txIndex + 1, replies := s.replies ++ [.done], opa := v }) ∧
  (∀ v rest, s.pending = .write (s.params.bmuBase + 0x010) 64 v :: rest →
    step s = .next { s with pending := rest, txIndex := s.txIndex + 1, replies := s.replies ++ [.done], opb := v }) ∧
  (∀ v rest, s.pending = .write (s.params.bmuBase + 0x018) 64 v :: rest →
    step s = .next { s with pending := rest, txIndex := s.txIndex + 1, replies := s.replies ++ [.done], opc := v }) ∧
  (∀ v rest, s.pending = .write (s.params.bmuBase + 0x028) 32 v :: rest →
    step s = .next { s with pending := rest, txIndex := s.txIndex + 1, replies := s.replies ++ [.done], start := v }) ∧
  (∀ v rest, s.pending = .write (s.params.bmuBase + 0x02C) 32 v :: rest →
    step s = .next { s with pending := rest, txIndex := s.txIndex + 1, replies := s.replies ++ [.done], bufLen := v }) ∧
  (∀ a rest, a < s.params.bufCap → s.pending = .read (s.params.bmuBase + 0x1000 + a) 8 :: rest →
    step s = .next (afterReply (.data8 (Memory.read s.buf a)) rest s)) ∧
  (∀ a v rest, a < s.params.bufCap → s.pending = .write (s.params.bmuBase + 0x1000 + a) 8 v :: rest →
    ∃ m, step s = .next { s with pending := rest, txIndex := s.txIndex + 1, replies := s.replies ++ [.done], buf := m } ∧
      (Memory.wf s.buf = true → ∀ x, Memory.read m x = if x = a then v else Memory.read s.buf x))

/-- 10_state.md R21, 20_memory.md R50, R66. -/
def Obligations.RegistersReadAsThemselves : Prop :=
  ∀ (s : State) (rest : List HostEvent),
  (s.pending = .read (s.params.bmuBase + 0x000) 32 :: rest → step s = .next (afterReply (.data32 s.cmd) rest s)) ∧
  (s.pending = .read (s.params.bmuBase + 0x004) 32 :: rest → step s = .next (afterReply (.data32 s.status) rest s)) ∧
  (s.pending = .read (s.params.bmuBase + 0x008) 64 :: rest → step s = .next (afterReply (.data64 s.opa) rest s)) ∧
  (s.pending = .read (s.params.bmuBase + 0x010) 64 :: rest → step s = .next (afterReply (.data64 s.opb) rest s)) ∧
  (s.pending = .read (s.params.bmuBase + 0x018) 64 :: rest → step s = .next (afterReply (.data64 s.opc) rest s)) ∧
  (s.pending = .read (s.params.bmuBase + 0x020) 64 :: rest → step s = .next (afterReply (.data64 s.result) rest s)) ∧
  (s.pending = .read (s.params.bmuBase + 0x028) 32 :: rest → step s = .next (afterReply (.data32 s.start) rest s)) ∧
  (s.pending = .read (s.params.bmuBase + 0x02C) 32 :: rest → step s = .next (afterReply (.data32 s.bufLen) rest s)) ∧
  (s.pending = .read (s.params.bmuBase + 0x030) 32 :: rest → step s = .next (afterReply (.data32 s.faultCmd) rest s)) ∧
  (s.pending = .read (s.params.bmuBase + 0x034) 32 :: rest →
    step s = .next (afterReply (.data32 (BitVec.ofNat 32 s.params.bufCap)) rest s))

/-- 10_state.md R42. -/
def Obligations.RegisterWritesTakeEffect : Prop :=
  ∀ (s : State) (rest : List HostEvent) (v : Word64) (u : Word32),
  (s.pending = .write (s.params.bmuBase + 0x008) 64 v :: rest → step s = .next { s with pending := rest, txIndex := s.txIndex + 1, replies := s.replies ++ [.done], opa := v }) ∧
  (s.pending = .write (s.params.bmuBase + 0x010) 64 v :: rest → step s = .next { s with pending := rest, txIndex := s.txIndex + 1, replies := s.replies ++ [.done], opb := v }) ∧
  (s.pending = .write (s.params.bmuBase + 0x018) 64 v :: rest → step s = .next { s with pending := rest, txIndex := s.txIndex + 1, replies := s.replies ++ [.done], opc := v }) ∧
  (s.pending = .write (s.params.bmuBase + 0x028) 32 u :: rest → step s = .next { s with pending := rest, txIndex := s.txIndex + 1, replies := s.replies ++ [.done], start := u }) ∧
  (s.pending = .write (s.params.bmuBase + 0x02C) 32 u :: rest → step s = .next { s with pending := rest, txIndex := s.txIndex + 1, replies := s.replies ++ [.done], bufLen := u }) ∧
  (s.pending = .write (s.params.bmuBase + 0x004) 32 u :: rest → step s = .next (afterReply .done rest s)) ∧
  (s.pending = .write (s.params.bmuBase + 0x020) 64 v :: rest → step s = .next (afterReply .done rest s)) ∧
  (s.pending = .write (s.params.bmuBase + 0x030) 32 u :: rest → step s = .next (afterReply .done rest s)) ∧
  (s.pending = .write (s.params.bmuBase + 0x034) 32 u :: rest → step s = .next (afterReply .done rest s))

/-- 20_memory.md R65. `writeBusError` is the name of the BusError of a write (log 6). -/
def Obligations.BufferWindowTransactions : Prop :=
  ∀ (s : State) (rest : List HostEvent) (a : Nat),
  (a < s.params.bufCap → s.pending = .read (s.params.bmuBase + 0x1000 + a) 8 :: rest →
    step s = .next (afterReply (.data8 (Memory.read s.buf a)) rest s)) ∧
  (∀ v, a < s.params.bufCap → s.pending = .write (s.params.bmuBase + 0x1000 + a) 8 v :: rest →
    ∃ m, step s = .next { s with pending := rest, txIndex := s.txIndex + 1, replies := s.replies ++ [.done], buf := m } ∧
      (Memory.wf s.buf = true → ∀ x, Memory.read m x = if x = a then v else Memory.read s.buf x)) ∧
  (∀ width, s.params.bufCap ≤ a ∨ width ≠ 8 → s.pending = .read (s.params.bmuBase + 0x1000 + a) width :: rest →
    step s = .next (afterReply .busError rest s)) ∧
  (∀ width v, s.params.bufCap ≤ a ∨ width ≠ 8 → s.pending = .write (s.params.bmuBase + 0x1000 + a) width v :: rest →
    step s = .next (afterReply .writeBusError rest s))

/-- 60_exceptions.md R216. An address below BMU_BASE is among them by the model's reading (log 8); `writeBusError` is the name of the BusError of a write (log 6). -/
def Obligations.BusErrorsChangeNothing : Prop :=
  ∀ (s : State) (rest : List HostEvent) (addr width : Nat),
  (∀ r, ¬(addr = s.params.bmuBase + regOffset r ∧ width = regWidth r)) →
  (∀ a < s.params.bufCap, ¬(addr = s.params.bmuBase + 0x1000 + a ∧ width = 8)) →
  (s.pending = .read addr width :: rest → step s = .next (afterReply .busError rest s)) ∧
  (∀ v, s.pending = .write addr width v :: rest → step s = .next (afterReply .writeBusError rest s))

/-- 70_reset_and_hazards.md R230: every register, BUF and the parameters after reset, and the same at power-on. The index and the replies are the model's own (logs 5, 6, 10) and left open here. -/
def Obligations.HardwareResetSetsEveryRegister : Prop :=
  (∀ (s : State) (rest : List HostEvent), s.pending = .reset :: rest →
    ∃ index replies, step s = .next
      { cmd := 0, status := 0, opa := 0, opb := 0, opc := 0, result := 0, start := 0, bufLen := 0, faultCmd := 0,
        buf := s.buf, params := s.params, pending := rest, txIndex := index, replies := replies }) ∧
  ∀ (p : Params) (image : Memory), ∃ pending txIndex replies, State.launch p image =
    { cmd := 0, status := 0, opa := 0, opb := 0, opc := 0, result := 0, start := 0, bufLen := 0, faultCmd := 0,
      buf := image, params := p, pending := pending, txIndex := txIndex, replies := replies }

/-- 70_reset_and_hazards.md R234: the reset value 0 of BUFLEN makes every WRITE and READ fault with E_BOUNDS. -/
def Obligations.PowerOnStateAcceptsNoAccess : Prop :=
  (∀ (p : Params) (image : Memory), (State.launch p image).bufLen = 0 ∧ faultBit (State.launch p image) = false) ∧
  (∀ (s : State) (i : Instr) (b : Nat) (rest : List HostEvent), s.bufLen = 0 → faultBit s = false →
    accessBytes i = some b → s.pending = .write s.params.bmuBase 32 (encode i) :: rest →
    step s = .next { s with pending := rest, txIndex := s.txIndex + 1, replies := s.replies ++ [.done], cmd := encode i, status := 0x41, faultCmd := encode i }) ∧
  ∀ (s : State) (k : Nat), s.bufLen = 0 → (∀ v : Word32, .write (s.params.bmuBase + 0x02C) 32 v ∉ s.pending) →
    ∃ t, runSteps k s = .next t ∧ t.bufLen = 0

/-- The model's reading of 70_reset_and_hazards.md R233 and 10_state.md R20 (log 4). -/
def Obligations.IdleStepChangesNothing : Prop :=
  ∀ s : State, s.pending = [] → step s = .next s

/-- 70_reset_and_hazards.md R234. The parameters and the image of State.reset are design choices (logs 1, 2). -/
def Obligations.ResetMeetsTheInvariant : Prop :=
  invariant State.reset = true ∧
  ∀ (p : Params) (image : Memory), p.legal = true → Memory.wf image = true →
    image.all (fun c => decide (c.1 < p.bufCap)) = true → invariant (State.launch p image) = true

/-- 10_state.md R26, R28, R35, R39; 60_exceptions.md R206, R208. -/
def Obligations.StepKeepsTheInvariant : Prop :=
  ∀ s : State, invariant s = true → ∃ t, step s = .next t ∧ invariant t = true

/-- 40_bitops.md R100 and R101. -/
def Obligations.FoldAndHighBitFunctions : Prop :=
  (∀ x : BitVec 8, fold x = [1, 2, 4].foldl (fun y sh => y ||| y >>> sh) x ∧ (fold x).toNat = foldValue x.toNat ∧
    (∀ sh, 8 ≤ sh → fold x ||| fold x >>> sh = fold x) ∧
    highBit x = fold x ^^^ fold x >>> 1 ∧ (highBit x).toNat = highBitValue x.toNat) ∧
  (∀ x : BitVec 16, fold x = [1, 2, 4, 8].foldl (fun y sh => y ||| y >>> sh) x ∧ (fold x).toNat = foldValue x.toNat ∧
    (∀ sh, 16 ≤ sh → fold x ||| fold x >>> sh = fold x) ∧
    highBit x = fold x ^^^ fold x >>> 1 ∧ (highBit x).toNat = highBitValue x.toNat) ∧
  (∀ x : BitVec 32, fold x = [1, 2, 4, 8, 16].foldl (fun y sh => y ||| y >>> sh) x ∧
    (fold x).toNat = foldValue x.toNat ∧ (∀ sh, 32 ≤ sh → fold x ||| fold x >>> sh = fold x) ∧
    highBit x = fold x ^^^ fold x >>> 1 ∧ (highBit x).toNat = highBitValue x.toNat) ∧
  (∀ x : BitVec 64, fold x = [1, 2, 4, 8, 16, 32].foldl (fun y sh => y ||| y >>> sh) x ∧
    (fold x).toNat = foldValue x.toNat ∧ (∀ sh, 64 ≤ sh → fold x ||| fold x >>> sh = fold x) ∧
    highBit x = fold x ^^^ fold x >>> 1 ∧ (highBit x).toNat = highBitValue x.toNat)

/-- 40_bitops.md R106 to R113, with `fold_N` in its closed form (R100). -/
def Obligations.FoldCommands : Prop :=
  (decode 0x00000001 = .ok .foldU8 ∧
   decode 0x00000041 = .ok .foldS8 ∧
   decode 0x00000011 = .ok .foldU16 ∧
   decode 0x00000051 = .ok .foldS16 ∧
   decode 0x00000021 = .ok .foldU32 ∧
   decode 0x00000061 = .ok .foldS32 ∧
   decode 0x00000031 = .ok .foldU64 ∧
   decode 0x00000071 = .ok .foldS64) ∧
  ∀ s : State,
  exec .foldU8 s = .next { s with result := (BitVec.ofNat 8 (foldValue (s.opa.toNat % 2 ^ 8))).setWidth 64 } ∧
  exec .foldS8 s = .next { s with result := (BitVec.ofNat 8 (foldValue (s.opa.toNat % 2 ^ 8))).signExtend 64 } ∧
  exec .foldU16 s = .next { s with result := (BitVec.ofNat 16 (foldValue (s.opa.toNat % 2 ^ 16))).setWidth 64 } ∧
  exec .foldS16 s = .next { s with result := (BitVec.ofNat 16 (foldValue (s.opa.toNat % 2 ^ 16))).signExtend 64 } ∧
  exec .foldU32 s = .next { s with result := (BitVec.ofNat 32 (foldValue (s.opa.toNat % 2 ^ 32))).setWidth 64 } ∧
  exec .foldS32 s = .next { s with result := (BitVec.ofNat 32 (foldValue (s.opa.toNat % 2 ^ 32))).signExtend 64 } ∧
  exec .foldU64 s = .next { s with result := (BitVec.ofNat 64 (foldValue (s.opa.toNat % 2 ^ 64))).setWidth 64 } ∧
  exec .foldS64 s = .next { s with result := (BitVec.ofNat 64 (foldValue (s.opa.toNat % 2 ^ 64))).signExtend 64 }

/-- 40_bitops.md R114 to R121, with `highbit_N` in its closed form (R101). -/
def Obligations.HighBitCommands : Prop :=
  (decode 0x00000002 = .ok .highbitU8 ∧
   decode 0x00000042 = .ok .highbitS8 ∧
   decode 0x00000012 = .ok .highbitU16 ∧
   decode 0x00000052 = .ok .highbitS16 ∧
   decode 0x00000022 = .ok .highbitU32 ∧
   decode 0x00000062 = .ok .highbitS32 ∧
   decode 0x00000032 = .ok .highbitU64 ∧
   decode 0x00000072 = .ok .highbitS64) ∧
  ∀ s : State,
  exec .highbitU8 s = .next { s with result := (BitVec.ofNat 8 (highBitValue (s.opa.toNat % 2 ^ 8))).setWidth 64 } ∧
  exec .highbitS8 s = .next { s with result := (BitVec.ofNat 8 (highBitValue (s.opa.toNat % 2 ^ 8))).signExtend 64 } ∧
  exec .highbitU16 s = .next { s with result := (BitVec.ofNat 16 (highBitValue (s.opa.toNat % 2 ^ 16))).setWidth 64 } ∧
  exec .highbitS16 s = .next { s with result := (BitVec.ofNat 16 (highBitValue (s.opa.toNat % 2 ^ 16))).signExtend 64 } ∧
  exec .highbitU32 s = .next { s with result := (BitVec.ofNat 32 (highBitValue (s.opa.toNat % 2 ^ 32))).setWidth 64 } ∧
  exec .highbitS32 s = .next { s with result := (BitVec.ofNat 32 (highBitValue (s.opa.toNat % 2 ^ 32))).signExtend 64 } ∧
  exec .highbitU64 s = .next { s with result := (BitVec.ofNat 64 (highBitValue (s.opa.toNat % 2 ^ 64))).setWidth 64 } ∧
  exec .highbitS64 s = .next { s with result := (BitVec.ofNat 64 (highBitValue (s.opa.toNat % 2 ^ 64))).signExtend 64 }

/-- 40_bitops.md R102, R122: `Nat.log2` is the index of the highest set bit, and 0 for 0. -/
def Obligations.Log2Command : Prop :=
  decode 0x00000023 = .ok .log2U32 ∧
  ∀ s : State, exec .log2U32 s = .next { s with result := BitVec.ofNat 64 (Nat.log2 (s.opa.toNat % 2 ^ 32)) }

/-- 10_state.md R37, R38. -/
def Obligations.RomIsTheUniqueLog2Table : Prop :=
  (∀ k < 32, lut.getD (lutIndex (BitVec.ofNat 32 (2 ^ (k + 1) - 1))) 0 = BitVec.ofNat 5 k) ∧
  (∀ j < 32, ∀ k < 32, lutIndex (BitVec.ofNat 32 (2 ^ (j + 1) - 1)) = lutIndex (BitVec.ofNat 32 (2 ^ (k + 1) - 1)) →
    j = k) ∧
  (∀ table : List (BitVec 5), table.length = 32 →
    (∀ k < 32, table.getD (lutIndex (BitVec.ofNat 32 (2 ^ (k + 1) - 1))) 0 = BitVec.ofNat 5 k) → table = lut) ∧
  lutIndex 0 = 0 ∧ lut.getD 0 0 = 0

/-- 40_bitops.md R103, R123, R124. -/
def Obligations.PopcountCommands : Prop :=
  (decode 0x00000024 = .ok .popcntU32 ∧ decode 0x00000064 = .ok .popcntS32) ∧
  ∀ s : State,
  exec .popcntU32 s = .next { s with result := BitVec.ofNat 64 (setBits32 s.opa.toNat) } ∧
  exec .popcntS32 s = .next { s with result := BitVec.ofNat 64 (setBits32 s.opa.toNat) }

/-- 40_bitops.md R104, R125 to R128, the hash in exact arithmetic on numbers. -/
def Obligations.HashCommands : Prop :=
  (∀ k < 64,
    decode (0x00000025 ||| BitVec.ofNat 32 k <<< 8) = .ok (.uhashU32 k) ∧
    decode (0x00000065 ||| BitVec.ofNat 32 k <<< 8) = .ok (.uhashS32 k) ∧
    decode (0x00000035 ||| BitVec.ofNat 32 k <<< 8) = .ok (.uhashU64 k) ∧
    decode (0x00000075 ||| BitVec.ofNat 32 k <<< 8) = .ok (.uhashS64 k)) ∧
  (∀ (s : State) (k : Nat), k ≤ 32 →
    exec (.uhashU32 k) s = .next { s with result := BitVec.ofNat 64 (hash32Value (s.opa.toNat % 2 ^ 32) (s.opb.toNat % 2 ^ 32) (s.opc.toNat % 2 ^ 32) k) } ∧
    exec (.uhashS32 k) s = .next { s with result := BitVec.ofNat 64 (hash32Value (s.opa.toNat % 2 ^ 32) (s.opb.toNat % 2 ^ 32) (s.opc.toNat % 2 ^ 32) k) } ∧
    exec (.uhashU64 k) s = .next { s with result := BitVec.ofNat 64 (hash64Value s.opa.toNat s.opb.toNat s.opc.toNat k) } ∧
    exec (.uhashS64 k) s = .next { s with result := BitVec.ofNat 64 (hash64Value s.opa.toNat s.opb.toNat s.opc.toNat k) }) ∧
  ∀ (s : State) (k : Nat), 32 < k → k < 64 →
    exec (.uhashU32 k) s = .next { s with status := 0x21, faultCmd := s.cmd } ∧
    exec (.uhashS32 k) s = .next { s with status := 0x21, faultCmd := s.cmd } ∧
    exec (.uhashU64 k) s = .next { s with status := 0x21, faultCmd := s.cmd } ∧
    exec (.uhashS64 k) s = .next { s with status := 0x21, faultCmd := s.cmd }

/-- 40_bitops.md R104: `0 <= RESULT < 2^K`. -/
def Obligations.HashFitsInItsBitCount : Prop :=
  ∀ (s : State) (k : Nat), k ≤ 32 → ∀ i ∈ [Instr.uhashU32 k, Instr.uhashS32 k, Instr.uhashU64 k, Instr.uhashS64 k],
  ∃ t, exec i s = .next t ∧ t.result.toNat < 2 ^ k

/-- 40_bitops.md R105, 30_encoding.md R84. -/
def Obligations.BitOpsReadOnlyTheirOperands : Prop :=
  ∀ (i : Instr) (s : State), accessBytes i = none →
  ∃ t, exec i s = .next t ∧
    (t = { s with result := t.result } ∨
      (∃ k, bitCount i = some k ∧ 32 < k) ∧ t = { s with status := 0x21, faultCmd := s.cmd }) ∧
    (∀ (m : Memory) (x y : Word32), exec i { s with buf := m, start := x, bufLen := y } =
      .next { t with buf := m, start := x, bufLen := y }) ∧
    (bitCount i = none → ∀ b c : Word64, exec i { s with opb := b, opc := c } = .next { t with opb := b, opc := c })

/-- 41_codec.md R150, R153 to R158. Involution is said of the RESULT: from a state whose OPA holds the RESULT of the first, the second gives the old N bits. -/
def Obligations.SwapCommands : Prop :=
  (decode 0x00000016 = .ok .swapU16 ∧
   decode 0x00000056 = .ok .swapS16 ∧
   decode 0x00000026 = .ok .swapU32 ∧
   decode 0x00000066 = .ok .swapS32 ∧
   decode 0x00000036 = .ok .swapU64 ∧
   decode 0x00000076 = .ok .swapS64) ∧
  (∀ s : State,
  (∃ r : BitVec 16, exec .swapU16 s = .next { s with result := r.setWidth 64 } ∧
    ∀ i < 2, r.extractLsb' (8 * i) 8 = byteOf s.opa (1 - i)) ∧
  (∃ r : BitVec 16, exec .swapS16 s = .next { s with result := r.signExtend 64 } ∧
    ∀ i < 2, r.extractLsb' (8 * i) 8 = byteOf s.opa (1 - i)) ∧
  (∃ r : BitVec 32, exec .swapU32 s = .next { s with result := r.setWidth 64 } ∧
    ∀ i < 4, r.extractLsb' (8 * i) 8 = byteOf s.opa (3 - i)) ∧
  (∃ r : BitVec 32, exec .swapS32 s = .next { s with result := r.signExtend 64 } ∧
    ∀ i < 4, r.extractLsb' (8 * i) 8 = byteOf s.opa (3 - i)) ∧
  (∃ r : BitVec 64, exec .swapU64 s = .next { s with result := r.setWidth 64 } ∧
    ∀ i < 8, r.extractLsb' (8 * i) 8 = byteOf s.opa (7 - i)) ∧
  (∃ r : BitVec 64, exec .swapS64 s = .next { s with result := r.signExtend 64 } ∧
    ∀ i < 8, r.extractLsb' (8 * i) 8 = byteOf s.opa (7 - i))) ∧
  ∀ s : State,
  (∃ t u, exec .swapU16 s = .next t ∧ exec .swapU16 { t with opa := t.result } = .next u ∧
    u.result = (s.opa.setWidth 16).setWidth 64) ∧
  (∃ t u, exec .swapS16 s = .next t ∧ exec .swapS16 { t with opa := t.result } = .next u ∧
    u.result = (s.opa.setWidth 16).signExtend 64) ∧
  (∃ t u, exec .swapU32 s = .next t ∧ exec .swapU32 { t with opa := t.result } = .next u ∧
    u.result = (s.opa.setWidth 32).setWidth 64) ∧
  (∃ t u, exec .swapS32 s = .next t ∧ exec .swapS32 { t with opa := t.result } = .next u ∧
    u.result = (s.opa.setWidth 32).signExtend 64) ∧
  (∃ t u, exec .swapU64 s = .next t ∧ exec .swapU64 { t with opa := t.result } = .next u ∧
    u.result = (s.opa.setWidth 64).setWidth 64) ∧
  (∃ t u, exec .swapS64 s = .next t ∧ exec .swapS64 { t with opa := t.result } = .next u ∧
    u.result = (s.opa.setWidth 64).signExtend 64)

/-- 41_codec.md R151, R152, R159 to R168. -/
def Obligations.WriteCommands : Prop :=
  ∀ c ∈ ([(.writeU8, 1, 0x08), (.writeS8, 1, 0x48), (.writeU16, 2, 0x18), (.writeS16, 2, 0x58), (.writeU32, 4, 0x28),
      (.writeS32, 4, 0x68), (.writeU64, 8, 0x38), (.writeS64, 8, 0x78), (.writeF32, 4, 0xA8), (.writeF64, 8, 0xB8)] :
      List (Instr × Nat × Word32)),
  decode c.2.2 = .ok c.1 ∧
  ∀ s : State,
    (s.params.bufCap < s.bufLen.toNat → exec c.1 s = .next { s with status := 0x31, faultCmd := s.cmd }) ∧
    (accessOutOfBounds c.2.1 s → exec c.1 s = .next { s with status := 0x41, faultCmd := s.cmd }) ∧
    (accessAllowed c.2.1 s →
      ∃ m, exec c.1 s = .next { s with buf := m } ∧
        (Memory.wf s.buf = true → Memory.wf m = true ∧
          ∀ a, Memory.read m a =
            if bufStart s ≤ a ∧ a < bufStart s + c.2.1 then byteOf s.opa (c.2.1 - 1 - (a - bufStart s))
            else Memory.read s.buf a))

/-- 41_codec.md R151, R152, R169 to R178; 20_memory.md R55. -/
def Obligations.ReadCommands : Prop :=
  ∀ c ∈ ([(.readU8, 1, 0x09, false), (.readS8, 1, 0x49, true), (.readU16, 2, 0x19, false), (.readS16, 2, 0x59, true),
      (.readU32, 4, 0x29, false), (.readS32, 4, 0x69, true), (.readU64, 8, 0x39, false), (.readS64, 8, 0x79, true),
      (.readF32, 4, 0xA9, false), (.readF64, 8, 0xB9, false)] :
      List (Instr × Nat × Word32 × Bool)),
  decode c.2.2.1 = .ok c.1 ∧
  ∀ s : State,
    (s.params.bufCap < s.bufLen.toNat → exec c.1 s = .next { s with status := 0x31, faultCmd := s.cmd }) ∧
    (accessOutOfBounds c.2.1 s → exec c.1 s = .next { s with status := 0x41, faultCmd := s.cmd }) ∧
    (accessAllowed c.2.1 s →
      exec c.1 s = .next { s with result := (
        if c.2.2.2 then (BitVec.ofNat (8 * c.2.1) (bigEndianValue s.buf (bufStart s) c.2.1)).signExtend 64
        else BitVec.ofNat 64 (bigEndianValue s.buf (bufStart s) c.2.1)) })

/-- 20_memory.md R55: `LoadBE(s, B)` right after `StoreBE(s, B, v)` returns v. -/
def Obligations.WriteThenReadReturnsTheValue : Prop :=
  ∀ c ∈ ([(.writeU8, .readU8, 1, false), (.writeS8, .readS8, 1, true), (.writeU16, .readU16, 2, false),
      (.writeS16, .readS16, 2, true), (.writeU32, .readU32, 4, false), (.writeS32, .readS32, 4, true),
      (.writeU64, .readU64, 8, false), (.writeS64, .readS64, 8, true), (.writeF32, .readF32, 4, false),
      (.writeF64, .readF64, 8, false)] :
      List (Instr × Instr × Nat × Bool)),
  ∀ s : State, Memory.wf s.buf = true → accessAllowed c.2.2.1 s →
    ∃ t u, exec c.1 s = .next t ∧ exec c.2.1 t = .next u ∧
      u.result = if c.2.2.2 then (s.opa.setWidth (8 * c.2.2.1)).signExtend 64
        else (s.opa.setWidth (8 * c.2.2.1)).setWidth 64

/-- 20_memory.md R57: its example for every value, and the other narrower spans and the signed reads. -/
def Obligations.NarrowReadsSeeTheBytesOfAWideWrite : Prop :=
  ∀ s : State, Memory.wf s.buf = true → accessAllowed 4 s →
  ∃ t, exec .writeU32 s = .next t ∧
    ∀ (u : State) (j : Nat), u.buf = t.buf → u.start.toInt = s.start.toInt + j →
      (j ≤ 2 → accessAllowed 2 u →
        exec .readU16 u = .next { u with result := BitVec.ofNat 64 (s.opa.toNat / 2 ^ (16 - 8 * j) % 2 ^ 16) } ∧
        exec .readS16 u = .next { u with result := (BitVec.ofNat 16 (s.opa.toNat / 2 ^ (16 - 8 * j))).signExtend 64 }) ∧
      (j ≤ 3 → accessAllowed 1 u →
        exec .readU8 u = .next { u with result := (byteOf s.opa (3 - j)).setWidth 64 } ∧
        exec .readS8 u = .next { u with result := (byteOf s.opa (3 - j)).signExtend 64 })

/-- 20_memory.md R52. -/
def Obligations.UnitStaysInsideTheCallersBuffer : Prop :=
  ∀ (i : Instr) (s : State), Memory.wf s.buf = true →
  ∃ t, exec i s = .next t ∧
    (∀ a, s.bufLen.toNat ≤ a → Memory.read t.buf a = Memory.read s.buf a) ∧
    ∀ m : Memory, Memory.wf m = true → (∀ a < s.bufLen.toNat, Memory.read m a = Memory.read s.buf a) →
      ∃ u, exec i { s with buf := m } = .next u ∧ u = { t with buf := u.buf } ∧
        ∀ a < s.bufLen.toNat, Memory.read u.buf a = Memory.read t.buf a

/-- 10_state.md R25, R29 to R34; 60_exceptions.md R207. -/
def Obligations.CommandsNeverWriteOperands : Prop :=
  ∀ (s : State) (w : Word32) (rest : List HostEvent), s.pending = .write s.params.bmuBase 32 w :: rest →
  ∃ t, step s = .next t ∧ t.opa = s.opa ∧ t.opb = s.opb ∧ t.opc = s.opc ∧ t.start = s.start ∧ t.bufLen = s.bufLen ∧
    t.params = s.params ∧ t.cmd = (if faultBit s then s.cmd else w) ∧
    (faultBit s = false → faultBit t = true → t.result = s.result ∧ t.buf = s.buf) ∧
    (faultBit t = faultBit s → t.status = s.status ∧ t.faultCmd = s.faultCmd)

/-- 70_reset_and_hazards.md R240, R241. There is no wait and no timeout: one step for one event. -/
def Obligations.RunsComplete : Prop :=
  (∀ s : State, ∃ t, step s = .next t) ∧
  ∀ s : State, ∃ t, runToEnd s = .next t ∧ t.pending = []

/-- 10_state.md R23. That a reset line advances the index, and the form of the reply log, are the model's choice (logs 5 and 6). -/
def Obligations.IndexAdvancesByOne : Prop :=
  ∀ (s : State) (e : HostEvent) (rest : List HostEvent), s.pending = e :: rest →
  ∃ t, step s = .next t ∧ t.pending = rest ∧ t.txIndex = s.txIndex + 1 ∧
    (e = .reset → t.replies = s.replies) ∧ (e ≠ .reset → ∃ r, t.replies = s.replies ++ [r])

/-- 60_exceptions.md R209, R210. -/
def Obligations.FaultLatchHoldsUntilReset : Prop :=
  (∀ (s : State) (k : Nat), faultBit s = true → .reset ∉ s.pending →
    ∃ t, runSteps k s = .next t ∧ faultBit t = true ∧ t.status = s.status ∧ t.faultCmd = s.faultCmd ∧
      t.cmd = s.cmd ∧ t.result = s.result) ∧
  ∀ (s : State) (rest : List HostEvent), s.pending = .reset :: rest →
    ∃ t, step s = .next t ∧ t.status = 0 ∧ t.faultCmd = 0

/-- 10_state.md R24: there are no condition flags, and STATUS is the only status. -/
def Obligations.StatusChangesOnlyByFaultOrReset : Prop :=
  ∀ s : State, ∃ t, step s = .next t ∧
  (t.status ≠ s.status → (∃ rest, s.pending = .reset :: rest) ∨
    ∃ w rest, s.pending = .write s.params.bmuBase 32 w :: rest ∧ faultBit s = false ∧ faultBit t = true ∧
      t.faultCmd = w)

/-- 70_reset_and_hazards.md R237; 10_state.md R32; the reset of R230 apart. -/
def Obligations.ResultChangesOnlyByACompletedCommand : Prop :=
  ∀ s : State, ∃ t, step s = .next t ∧
  (t.result ≠ s.result → (∃ rest, s.pending = .reset :: rest) ∨
    ∃ w rest i, s.pending = .write s.params.bmuBase 32 w :: rest ∧ faultBit s = false ∧ decode w = .ok i ∧
      isWrite i = false ∧ faultBit t = false)

/-- 10_state.md R36, 70_reset_and_hazards.md R232, R234. -/
def Obligations.CapAlwaysReadsTheCapacity : Prop :=
  ∀ (s : State) (k : Nat), ∃ t, runSteps k s = .next t ∧ t.params = s.params ∧
  ∀ rest : List HostEvent,
    (t.pending = .read (t.params.bmuBase + 0x034) 32 :: rest →
      step t = .next (afterReply (.data32 (BitVec.ofNat 32 s.params.bufCap)) rest t)) ∧
    ∀ v, t.pending = .write (t.params.bmuBase + 0x034) 32 v :: rest → step t = .next (afterReply .done rest t)

/-- 20_memory.md R56, 70_reset_and_hazards.md R241, R242. -/
def Obligations.HostByteOrderIsInvisible : Prop :=
  ∀ (s : State) (k : Nat) (b : Bool), ∃ t u, runSteps k s = .next t ∧
  runSteps k (withHostLE b s) = .next u ∧ u.buf = t.buf ∧ u.result = t.result ∧ outcomeOf u = outcomeOf t

/-- 20_memory.md R66. -/
def Obligations.ReadsHaveNoSideEffect : Prop :=
  (∀ (s : State) (addr width : Nat) (rest : List HostEvent), s.pending = .read addr width :: rest →
    ∃ r, step s = .next (afterReply r rest s)) ∧
  ∀ (s : State) (addr width : Nat) (v : BitVec width) (rest : List HostEvent), Memory.wf s.buf = true →
    ¬(addr = s.params.bmuBase ∧ width = 32) → s.pending = .write addr width v :: .write addr width v :: rest →
    ∃ t u, step s = .next t ∧ step t = .next u ∧
      u = { t with pending := rest, txIndex := u.txIndex, replies := u.replies }

/-- 30_encoding.md R82. That a bit count has one spelling is the model's choice (log 13). -/
def Obligations.AssemblerTakesExactlyTheSpellings : Prop :=
  ∀ (text : String) (w : Word32),
  assemble text = some w ↔ ∃ i : Instr, i.wellFormed = true ∧ spelling i = text ∧ encode i = w

/-- 70_reset_and_hazards.md R241, items 1 to 3. -/
def Obligations.OutcomeHoldsOneEntryForEachRead : Prop :=
  (∀ (s : State) (addr width : Nat) (rest : List HostEvent), s.pending = .read addr width :: rest →
    ∃ r, step s = .next (afterReply r rest s) ∧
      (outcomeOf (afterReply r rest s)).reads = (outcomeOf s).reads ++ [r]) ∧
  (∀ (s : State) (addr width : Nat) (v : BitVec width) (rest : List HostEvent),
    s.pending = .write addr width v :: rest ∨ s.pending = .reset :: rest →
    ∃ t, step s = .next t ∧ (outcomeOf t).reads = (outcomeOf s).reads) ∧
  (∀ s : State, ∃ t values, runToEnd s = .next t ∧ (outcomeOf t).reads = (outcomeOf s).reads ++ values ∧
    values.length = (s.pending.filter isReadEvent).length) ∧
  ∀ s : State,
    (outcomeOf s).registers = [.data32 s.cmd, .data32 s.status, .data64 s.opa, .data64 s.opb, .data64 s.opc,
      .data64 s.result, .data32 s.start, .data32 s.bufLen, .data32 s.faultCmd,
      .data32 (BitVec.ofNat 32 s.params.bufCap)] ∧
    (outcomeOf s).image.length = s.params.bufCap ∧
    ∀ a < s.params.bufCap, (outcomeOf s).image[a]? = some (Memory.read s.buf a)
end

