-- ==== Sys2Proof/Laws/Memory.lean ====
section
/-! SUPPORT. The laws of the buffer: reads and writes, the canonical form, and the big-endian accesses. -/

namespace Sys2Proof.Machine

@[simp] theorem Memory.read_nil (a : Nat) : Memory.read [] a = blankByte := rfl

@[simp] theorem Memory.read_cons (a' : Nat) (b : Byte) (rest : Memory) (a : Nat) :
    Memory.read ((a', b) :: rest) a = if a' = a then b else Memory.read rest a := rfl

/-- Below the first address of a canonical memory every byte is blank. -/
theorem Memory.read_of_lt {m : Memory} {lo a : Nat} (h : Memory.wfFrom lo m = true) (ha : a < lo) :
    Memory.read m a = blankByte := by
  induction m generalizing lo with
  | nil => rfl
  | cons c rest ih =>
    obtain ⟨a', b⟩ := c
    simp only [Memory.wfFrom, Bool.and_eq_true, decide_eq_true_eq] at h
    rw [Memory.read_cons, if_neg (by omega)]
    exact ih h.2 (by omega)

theorem Memory.wfFrom_mono {m : Memory} {lo lo' : Nat} (h : Memory.wfFrom lo m = true) (hl : lo' ≤ lo) :
    Memory.wfFrom lo' m = true := by
  cases m with
  | nil => rfl
  | cons c rest =>
    simp only [Memory.wfFrom, Bool.and_eq_true, decide_eq_true_eq] at h ⊢
    exact ⟨⟨by omega, h.1.2⟩, h.2⟩

theorem Memory.cons_wfFrom {lo a : Nat} {b : Byte} {rest : Memory} (hl : lo ≤ a)
    (h : Memory.wfFrom (a + 1) rest = true) : Memory.wfFrom lo (Memory.cons a b rest) = true := by
  unfold Memory.cons
  split
  · exact Memory.wfFrom_mono h (by omega)
  · simp_all [Memory.wfFrom]

/-- A write keeps the canonical form. -/
theorem Memory.write_wfFrom {m : Memory} {lo a : Nat} {b : Byte} (h : Memory.wfFrom lo m = true) (hl : lo ≤ a) :
    Memory.wfFrom lo (Memory.write m a b) = true := by
  induction m generalizing lo with
  | nil => exact Memory.cons_wfFrom hl rfl
  | cons c rest ih =>
    obtain ⟨a', b'⟩ := c
    have h' := h
    simp only [Memory.wfFrom, Bool.and_eq_true, decide_eq_true_eq] at h'
    simp only [Memory.write]
    split
    · exact Memory.cons_wfFrom hl (by simp [Memory.wfFrom, h'.1.2, h'.2]; omega)
    split
    · next heq => exact Memory.cons_wfFrom hl (heq ▸ h'.2)
    · simp only [Memory.wfFrom, Bool.and_eq_true, decide_eq_true_eq]
      exact ⟨h'.1, ih h'.2 (by omega)⟩

theorem Memory.write_wf {m : Memory} {a : Nat} {b : Byte} (h : Memory.wf m = true) :
    Memory.wf (Memory.write m a b) = true :=
  Memory.write_wfFrom h (Nat.zero_le a)

theorem Memory.cons_read {lo a : Nat} {b : Byte} {rest : Memory} (h : Memory.wfFrom lo rest = true) (ha : a < lo)
    (x : Nat) : Memory.read (Memory.cons a b rest) x = if a = x then b else Memory.read rest x := by
  unfold Memory.cons
  split
  · next hb =>
    subst hb
    split
    · next hx => subst hx; exact Memory.read_of_lt h ha
    · rfl
  · rfl

/-- What a byte reads as after a write to a canonical memory. -/
theorem Memory.read_write {m : Memory} {lo : Nat} (h : Memory.wfFrom lo m = true) (a x : Nat) (b : Byte) :
    Memory.read (Memory.write m a b) x = if a = x then b else Memory.read m x := by
  induction m generalizing lo with
  | nil => exact Memory.cons_read (lo := a + 1) rfl (by omega) x
  | cons c rest ih =>
    obtain ⟨a', b'⟩ := c
    have h' := h
    simp only [Memory.wfFrom, Bool.and_eq_true, decide_eq_true_eq] at h'
    simp only [Memory.write]
    split
    · exact Memory.cons_read (lo := a') (by simp [Memory.wfFrom, h'.1.2, h'.2]) ‹_› x
    split
    · next heq =>
      subst heq
      rw [Memory.cons_read h'.2 (by omega), Memory.read_cons]
      split <;> rfl
    · rw [Memory.read_cons, Memory.read_cons, ih h'.2]
      split <;> split <;> first | rfl | omega

theorem Memory.read_write_same {m : Memory} (h : Memory.wf m = true) (a : Nat) (b : Byte) :
    Memory.read (Memory.write m a b) a = b := by
  simp [Memory.read_write h]

theorem Memory.read_write_other {m : Memory} (h : Memory.wf m = true) {a x : Nat} (b : Byte) (hx : a ≠ x) :
    Memory.read (Memory.write m a b) x = Memory.read m x := by
  simp [Memory.read_write h, hx]

/-- A write within the capacity keeps every cell within it. -/
theorem Memory.write_below {m : Memory} {a cap : Nat} {b : Byte} (h : m.all (fun c => decide (c.1 < cap)) = true)
    (ha : a < cap) : (Memory.write m a b).all (fun c => decide (c.1 < cap)) = true := by
  induction m with
  | nil => simp only [Memory.write, Memory.cons]; split <;> simp [ha]
  | cons c rest ih =>
    obtain ⟨a', b'⟩ := c
    simp only [List.all_cons, Bool.and_eq_true] at h
    have hd : decide (a < cap) = true := by simpa using ha
    simp only [Memory.write, Memory.cons]
    split
    · split <;> simp only [List.all_cons, Bool.and_eq_true] <;> tauto
    split
    · split
      · exact h.2
      · simp only [List.all_cons, Bool.and_eq_true]; tauto
    · simp only [List.all_cons, Bool.and_eq_true]
      exact ⟨h.1, ih h.2⟩

/-- Canonical memories that read alike are equal. -/
theorem Memory.ext_of_read {m m' : Memory} {lo : Nat} (h : Memory.wfFrom lo m = true) (h' : Memory.wfFrom lo m' = true)
    (hr : ∀ a, Memory.read m a = Memory.read m' a) : m = m' := by
  induction m generalizing m' lo with
  | nil =>
    cases m' with
    | nil => rfl
    | cons c rest =>
      obtain ⟨a, b⟩ := c
      simp only [Memory.wfFrom, Bool.and_eq_true, decide_eq_true_eq] at h'
      exact absurd (by simpa using (hr a).symm) h'.1.2
  | cons c rest ih =>
    obtain ⟨a, b⟩ := c
    simp only [Memory.wfFrom, Bool.and_eq_true, decide_eq_true_eq] at h
    cases m' with
    | nil => exact absurd (by simpa using hr a) h.1.2
    | cons c' rest' =>
      obtain ⟨a', b'⟩ := c'
      simp only [Memory.wfFrom, Bool.and_eq_true, decide_eq_true_eq] at h'
      have haa : a = a' := by
        rcases Nat.lt_trichotomy a a' with hlt | heq | hgt
        · have e := hr a
          rw [Memory.read_cons, if_pos rfl, Memory.read_cons, if_neg (by omega),
            Memory.read_of_lt h'.2 (by omega)] at e
          exact absurd e h.1.2
        · exact heq
        · have e := hr a'
          rw [Memory.read_cons, if_neg (by omega), Memory.read_of_lt h.2 (by omega), Memory.read_cons, if_pos rfl] at e
          exact absurd e.symm h'.1.2
      subst haa
      have hb : b = b' := by simpa using hr a
      subst hb
      congr 1
      refine ih h.2 h'.2 fun x => ?_
      by_cases hx : a = x
      · subst hx
        rw [Memory.read_of_lt h.2 (by omega), Memory.read_of_lt h'.2 (by omega)]
      · simpa [hx] using hr x

/-! ### Big-endian accesses -/

theorem storeBE_wf {n : Nat} {m : Memory} (h : Memory.wf m = true) (start : Nat) (v : BitVec n) (b : Nat) :
    Memory.wf (storeBE m start v b) = true := by
  induction b generalizing m start with
  | zero => exact h
  | succ b ih => exact ih (Memory.write_wf h) (start + 1)

theorem storeBE_below {n cap : Nat} {m : Memory} (h : m.all (fun c => decide (c.1 < cap)) = true) (start : Nat)
    (v : BitVec n) (b : Nat) (hb : start + b ≤ cap) :
    (storeBE m start v b).all (fun c => decide (c.1 < cap)) = true := by
  induction b generalizing m start with
  | zero => exact h
  | succ b ih => exact ih (Memory.write_below h (by omega)) (start + 1) (by omega)

/-- What a byte reads as after StoreBE (20_memory.md R54): inside the stored bytes the value's byte, the most significant
one first, and outside them what it read as before. -/
theorem read_storeBE {n : Nat} {m : Memory} (h : Memory.wf m = true) (start : Nat) (v : BitVec n) (b a : Nat) :
    Memory.read (storeBE m start v b) a =
      if start ≤ a ∧ a < start + b then v.extractLsb' (8 * (b - 1 - (a - start))) 8 else Memory.read m a := by
  induction b generalizing m start with
  | zero => rw [if_neg (by omega)]; rfl
  | succ b ih =>
    rw [storeBE, ih (Memory.write_wf h) (start + 1), Memory.read_write h]
    by_cases h1 : start = a
    · subst h1
      rw [if_neg (by omega), if_pos rfl, if_pos (by omega)]
      congr 1
      omega
    · rw [if_neg h1]
      by_cases h2 : start + 1 ≤ a ∧ a < start + 1 + b
      · rw [if_pos h2, if_pos (by omega)]
        congr 1
        omega
      · rw [if_neg h2, if_neg (by omega)]

theorem loadBE_getLsbD (n : Nat) (m : Memory) (start b i : Nat) :
    (loadBE n m start b).getLsbD i =
      (decide (i < n) && decide (i < 8 * b) && (Memory.read m (start + (b - 1 - i / 8))).getLsbD (i % 8)) := by
  induction b generalizing start with
  | zero => simp [loadBE]
  | succ b ih =>
    simp only [loadBE, BitVec.getLsbD_or, BitVec.getLsbD_shiftLeft, BitVec.getLsbD_setWidth, ih]
    by_cases hn : i < n
    · by_cases h1 : i < 8 * b
      · have e : start + 1 + (b - 1 - i / 8) = start + (b + 1 - 1 - i / 8) := by omega
        simp [hn, h1, e, show i < 8 * (b + 1) by omega]
      · by_cases h2 : i < 8 * (b + 1)
        · have e : b - i / 8 = 0 := by omega
          have e2 : i - 8 * b = i % 8 := by omega
          have e3 : i % 8 < n := by omega
          simp [hn, h1, h2, e, e2, e3]
        · have hz : (Memory.read m start).getLsbD (i - 8 * b) = false :=
            BitVec.getLsbD_of_ge _ _ (by omega)
          simp [h1, h2, hz]
    · simp [hn]

/-- Byte `j` of LoadBE's value, from the least significant one, is the byte at `start + (b - 1 - j)`
(20_memory.md R55). -/
theorem loadBE_byte {n : Nat} (m : Memory) (start b j : Nat) (hj : j < b) (hn : 8 * b ≤ n) :
    (loadBE n m start b).extractLsb' (8 * j) 8 = Memory.read m (start + (b - 1 - j)) := by
  refine BitVec.eq_of_getLsbD_eq fun i hi => ?_
  rw [BitVec.getLsbD_extractLsb', loadBE_getLsbD]
  have e : (8 * j + i) / 8 = j := by omega
  have e2 : (8 * j + i) % 8 = i := by omega
  simp [hi, e, e2, show 8 * j + i < n by omega, show 8 * j + i < 8 * b by omega]

/-- LoadBE reads only the bytes of its span. -/
theorem loadBE_congr {n : Nat} {m m' : Memory} (start b : Nat)
    (h : ∀ a, start ≤ a → a < start + b → Memory.read m a = Memory.read m' a) :
    loadBE n m start b = loadBE n m' start b := by
  induction b generalizing start with
  | zero => rfl
  | succ b ih =>
    simp only [loadBE]
    rw [h start (by omega) (by omega), ih (start + 1) fun a h1 h2 => h a (by omega) (by omega)]

theorem reset_buf_wf : Memory.wf State.reset.buf = true := rfl

end Sys2Proof.Machine
end

