-- ==== Sys2Proof/Laws/State.lean ====
section
/-! SUPPORT. What each named update of the state leaves in each field: one lemma per field per update. -/

namespace Sys2Proof.Machine

@[simp] theorem setResult_cmd (v : Word64) (s : State) : (setResult v s).cmd = s.cmd := rfl
@[simp] theorem setResult_status (v : Word64) (s : State) : (setResult v s).status = s.status := rfl
@[simp] theorem setResult_opa (v : Word64) (s : State) : (setResult v s).opa = s.opa := rfl
@[simp] theorem setResult_opb (v : Word64) (s : State) : (setResult v s).opb = s.opb := rfl
@[simp] theorem setResult_opc (v : Word64) (s : State) : (setResult v s).opc = s.opc := rfl
@[simp] theorem setResult_result (v : Word64) (s : State) : (setResult v s).result = v := rfl
@[simp] theorem setResult_start (v : Word64) (s : State) : (setResult v s).start = s.start := rfl
@[simp] theorem setResult_bufLen (v : Word64) (s : State) : (setResult v s).bufLen = s.bufLen := rfl
@[simp] theorem setResult_faultCmd (v : Word64) (s : State) : (setResult v s).faultCmd = s.faultCmd := rfl
@[simp] theorem setResult_buf (v : Word64) (s : State) : (setResult v s).buf = s.buf := rfl
@[simp] theorem setResult_params (v : Word64) (s : State) : (setResult v s).params = s.params := rfl
@[simp] theorem setResult_pending (v : Word64) (s : State) : (setResult v s).pending = s.pending := rfl
@[simp] theorem setResult_txIndex (v : Word64) (s : State) : (setResult v s).txIndex = s.txIndex := rfl
@[simp] theorem setResult_replies (v : Word64) (s : State) : (setResult v s).replies = s.replies := rfl

@[simp] theorem setBuf_cmd (m : Memory) (s : State) : (setBuf m s).cmd = s.cmd := rfl
@[simp] theorem setBuf_status (m : Memory) (s : State) : (setBuf m s).status = s.status := rfl
@[simp] theorem setBuf_opa (m : Memory) (s : State) : (setBuf m s).opa = s.opa := rfl
@[simp] theorem setBuf_opb (m : Memory) (s : State) : (setBuf m s).opb = s.opb := rfl
@[simp] theorem setBuf_opc (m : Memory) (s : State) : (setBuf m s).opc = s.opc := rfl
@[simp] theorem setBuf_result (m : Memory) (s : State) : (setBuf m s).result = s.result := rfl
@[simp] theorem setBuf_start (m : Memory) (s : State) : (setBuf m s).start = s.start := rfl
@[simp] theorem setBuf_bufLen (m : Memory) (s : State) : (setBuf m s).bufLen = s.bufLen := rfl
@[simp] theorem setBuf_faultCmd (m : Memory) (s : State) : (setBuf m s).faultCmd = s.faultCmd := rfl
@[simp] theorem setBuf_buf (m : Memory) (s : State) : (setBuf m s).buf = m := rfl
@[simp] theorem setBuf_params (m : Memory) (s : State) : (setBuf m s).params = s.params := rfl
@[simp] theorem setBuf_pending (m : Memory) (s : State) : (setBuf m s).pending = s.pending := rfl
@[simp] theorem setBuf_txIndex (m : Memory) (s : State) : (setBuf m s).txIndex = s.txIndex := rfl
@[simp] theorem setBuf_replies (m : Memory) (s : State) : (setBuf m s).replies = s.replies := rfl

@[simp] theorem raiseFault_cmd (c : FaultCode) (s : State) : (raiseFault c s).cmd = s.cmd := rfl
@[simp] theorem raiseFault_status (c : FaultCode) (s : State) : (raiseFault c s).status = statusWord c := rfl
@[simp] theorem raiseFault_opa (c : FaultCode) (s : State) : (raiseFault c s).opa = s.opa := rfl
@[simp] theorem raiseFault_opb (c : FaultCode) (s : State) : (raiseFault c s).opb = s.opb := rfl
@[simp] theorem raiseFault_opc (c : FaultCode) (s : State) : (raiseFault c s).opc = s.opc := rfl
@[simp] theorem raiseFault_result (c : FaultCode) (s : State) : (raiseFault c s).result = s.result := rfl
@[simp] theorem raiseFault_start (c : FaultCode) (s : State) : (raiseFault c s).start = s.start := rfl
@[simp] theorem raiseFault_bufLen (c : FaultCode) (s : State) : (raiseFault c s).bufLen = s.bufLen := rfl
@[simp] theorem raiseFault_faultCmd (c : FaultCode) (s : State) : (raiseFault c s).faultCmd = s.cmd := rfl
@[simp] theorem raiseFault_buf (c : FaultCode) (s : State) : (raiseFault c s).buf = s.buf := rfl
@[simp] theorem raiseFault_params (c : FaultCode) (s : State) : (raiseFault c s).params = s.params := rfl
@[simp] theorem raiseFault_pending (c : FaultCode) (s : State) : (raiseFault c s).pending = s.pending := rfl
@[simp] theorem raiseFault_txIndex (c : FaultCode) (s : State) : (raiseFault c s).txIndex = s.txIndex := rfl
@[simp] theorem raiseFault_replies (c : FaultCode) (s : State) : (raiseFault c s).replies = s.replies := rfl

@[simp] theorem logReply_cmd (r : Reply) (s : State) : (logReply r s).cmd = s.cmd := rfl
@[simp] theorem logReply_status (r : Reply) (s : State) : (logReply r s).status = s.status := rfl
@[simp] theorem logReply_opa (r : Reply) (s : State) : (logReply r s).opa = s.opa := rfl
@[simp] theorem logReply_opb (r : Reply) (s : State) : (logReply r s).opb = s.opb := rfl
@[simp] theorem logReply_opc (r : Reply) (s : State) : (logReply r s).opc = s.opc := rfl
@[simp] theorem logReply_result (r : Reply) (s : State) : (logReply r s).result = s.result := rfl
@[simp] theorem logReply_start (r : Reply) (s : State) : (logReply r s).start = s.start := rfl
@[simp] theorem logReply_bufLen (r : Reply) (s : State) : (logReply r s).bufLen = s.bufLen := rfl
@[simp] theorem logReply_faultCmd (r : Reply) (s : State) : (logReply r s).faultCmd = s.faultCmd := rfl
@[simp] theorem logReply_buf (r : Reply) (s : State) : (logReply r s).buf = s.buf := rfl
@[simp] theorem logReply_params (r : Reply) (s : State) : (logReply r s).params = s.params := rfl
@[simp] theorem logReply_pending (r : Reply) (s : State) : (logReply r s).pending = s.pending := rfl
@[simp] theorem logReply_txIndex (r : Reply) (s : State) : (logReply r s).txIndex = s.txIndex := rfl
@[simp] theorem logReply_replies (r : Reply) (s : State) : (logReply r s).replies = s.replies ++ [r] := rfl

@[simp] theorem latchCommand_cmd (w : Word32) (s : State) : (latchCommand w s).cmd = w := rfl
@[simp] theorem latchCommand_status (w : Word32) (s : State) : (latchCommand w s).status = s.status := rfl
@[simp] theorem latchCommand_opa (w : Word32) (s : State) : (latchCommand w s).opa = s.opa := rfl
@[simp] theorem latchCommand_opb (w : Word32) (s : State) : (latchCommand w s).opb = s.opb := rfl
@[simp] theorem latchCommand_opc (w : Word32) (s : State) : (latchCommand w s).opc = s.opc := rfl
@[simp] theorem latchCommand_result (w : Word32) (s : State) : (latchCommand w s).result = s.result := rfl
@[simp] theorem latchCommand_start (w : Word32) (s : State) : (latchCommand w s).start = s.start := rfl
@[simp] theorem latchCommand_bufLen (w : Word32) (s : State) : (latchCommand w s).bufLen = s.bufLen := rfl
@[simp] theorem latchCommand_faultCmd (w : Word32) (s : State) : (latchCommand w s).faultCmd = s.faultCmd := rfl
@[simp] theorem latchCommand_buf (w : Word32) (s : State) : (latchCommand w s).buf = s.buf := rfl
@[simp] theorem latchCommand_params (w : Word32) (s : State) : (latchCommand w s).params = s.params := rfl
@[simp] theorem latchCommand_pending (w : Word32) (s : State) : (latchCommand w s).pending = s.pending := rfl
@[simp] theorem latchCommand_txIndex (w : Word32) (s : State) : (latchCommand w s).txIndex = s.txIndex := rfl
@[simp] theorem latchCommand_replies (w : Word32) (s : State) : (latchCommand w s).replies = s.replies := rfl

@[simp] theorem setOpa_cmd (v : Word64) (s : State) : (setOpa v s).cmd = s.cmd := rfl
@[simp] theorem setOpa_status (v : Word64) (s : State) : (setOpa v s).status = s.status := rfl
@[simp] theorem setOpa_opa (v : Word64) (s : State) : (setOpa v s).opa = v := rfl
@[simp] theorem setOpa_opb (v : Word64) (s : State) : (setOpa v s).opb = s.opb := rfl
@[simp] theorem setOpa_opc (v : Word64) (s : State) : (setOpa v s).opc = s.opc := rfl
@[simp] theorem setOpa_result (v : Word64) (s : State) : (setOpa v s).result = s.result := rfl
@[simp] theorem setOpa_start (v : Word64) (s : State) : (setOpa v s).start = s.start := rfl
@[simp] theorem setOpa_bufLen (v : Word64) (s : State) : (setOpa v s).bufLen = s.bufLen := rfl
@[simp] theorem setOpa_faultCmd (v : Word64) (s : State) : (setOpa v s).faultCmd = s.faultCmd := rfl
@[simp] theorem setOpa_buf (v : Word64) (s : State) : (setOpa v s).buf = s.buf := rfl
@[simp] theorem setOpa_params (v : Word64) (s : State) : (setOpa v s).params = s.params := rfl
@[simp] theorem setOpa_pending (v : Word64) (s : State) : (setOpa v s).pending = s.pending := rfl
@[simp] theorem setOpa_txIndex (v : Word64) (s : State) : (setOpa v s).txIndex = s.txIndex := rfl
@[simp] theorem setOpa_replies (v : Word64) (s : State) : (setOpa v s).replies = s.replies := rfl

@[simp] theorem setOpb_cmd (v : Word64) (s : State) : (setOpb v s).cmd = s.cmd := rfl
@[simp] theorem setOpb_status (v : Word64) (s : State) : (setOpb v s).status = s.status := rfl
@[simp] theorem setOpb_opa (v : Word64) (s : State) : (setOpb v s).opa = s.opa := rfl
@[simp] theorem setOpb_opb (v : Word64) (s : State) : (setOpb v s).opb = v := rfl
@[simp] theorem setOpb_opc (v : Word64) (s : State) : (setOpb v s).opc = s.opc := rfl
@[simp] theorem setOpb_result (v : Word64) (s : State) : (setOpb v s).result = s.result := rfl
@[simp] theorem setOpb_start (v : Word64) (s : State) : (setOpb v s).start = s.start := rfl
@[simp] theorem setOpb_bufLen (v : Word64) (s : State) : (setOpb v s).bufLen = s.bufLen := rfl
@[simp] theorem setOpb_faultCmd (v : Word64) (s : State) : (setOpb v s).faultCmd = s.faultCmd := rfl
@[simp] theorem setOpb_buf (v : Word64) (s : State) : (setOpb v s).buf = s.buf := rfl
@[simp] theorem setOpb_params (v : Word64) (s : State) : (setOpb v s).params = s.params := rfl
@[simp] theorem setOpb_pending (v : Word64) (s : State) : (setOpb v s).pending = s.pending := rfl
@[simp] theorem setOpb_txIndex (v : Word64) (s : State) : (setOpb v s).txIndex = s.txIndex := rfl
@[simp] theorem setOpb_replies (v : Word64) (s : State) : (setOpb v s).replies = s.replies := rfl

@[simp] theorem setOpc_cmd (v : Word64) (s : State) : (setOpc v s).cmd = s.cmd := rfl
@[simp] theorem setOpc_status (v : Word64) (s : State) : (setOpc v s).status = s.status := rfl
@[simp] theorem setOpc_opa (v : Word64) (s : State) : (setOpc v s).opa = s.opa := rfl
@[simp] theorem setOpc_opb (v : Word64) (s : State) : (setOpc v s).opb = s.opb := rfl
@[simp] theorem setOpc_opc (v : Word64) (s : State) : (setOpc v s).opc = v := rfl
@[simp] theorem setOpc_result (v : Word64) (s : State) : (setOpc v s).result = s.result := rfl
@[simp] theorem setOpc_start (v : Word64) (s : State) : (setOpc v s).start = s.start := rfl
@[simp] theorem setOpc_bufLen (v : Word64) (s : State) : (setOpc v s).bufLen = s.bufLen := rfl
@[simp] theorem setOpc_faultCmd (v : Word64) (s : State) : (setOpc v s).faultCmd = s.faultCmd := rfl
@[simp] theorem setOpc_buf (v : Word64) (s : State) : (setOpc v s).buf = s.buf := rfl
@[simp] theorem setOpc_params (v : Word64) (s : State) : (setOpc v s).params = s.params := rfl
@[simp] theorem setOpc_pending (v : Word64) (s : State) : (setOpc v s).pending = s.pending := rfl
@[simp] theorem setOpc_txIndex (v : Word64) (s : State) : (setOpc v s).txIndex = s.txIndex := rfl
@[simp] theorem setOpc_replies (v : Word64) (s : State) : (setOpc v s).replies = s.replies := rfl

@[simp] theorem setStart_cmd (v : Word32) (s : State) : (setStart v s).cmd = s.cmd := rfl
@[simp] theorem setStart_status (v : Word32) (s : State) : (setStart v s).status = s.status := rfl
@[simp] theorem setStart_opa (v : Word32) (s : State) : (setStart v s).opa = s.opa := rfl
@[simp] theorem setStart_opb (v : Word32) (s : State) : (setStart v s).opb = s.opb := rfl
@[simp] theorem setStart_opc (v : Word32) (s : State) : (setStart v s).opc = s.opc := rfl
@[simp] theorem setStart_result (v : Word32) (s : State) : (setStart v s).result = s.result := rfl
@[simp] theorem setStart_start (v : Word32) (s : State) : (setStart v s).start = v := rfl
@[simp] theorem setStart_bufLen (v : Word32) (s : State) : (setStart v s).bufLen = s.bufLen := rfl
@[simp] theorem setStart_faultCmd (v : Word32) (s : State) : (setStart v s).faultCmd = s.faultCmd := rfl
@[simp] theorem setStart_buf (v : Word32) (s : State) : (setStart v s).buf = s.buf := rfl
@[simp] theorem setStart_params (v : Word32) (s : State) : (setStart v s).params = s.params := rfl
@[simp] theorem setStart_pending (v : Word32) (s : State) : (setStart v s).pending = s.pending := rfl
@[simp] theorem setStart_txIndex (v : Word32) (s : State) : (setStart v s).txIndex = s.txIndex := rfl
@[simp] theorem setStart_replies (v : Word32) (s : State) : (setStart v s).replies = s.replies := rfl

@[simp] theorem setBufLen_cmd (v : Word32) (s : State) : (setBufLen v s).cmd = s.cmd := rfl
@[simp] theorem setBufLen_status (v : Word32) (s : State) : (setBufLen v s).status = s.status := rfl
@[simp] theorem setBufLen_opa (v : Word32) (s : State) : (setBufLen v s).opa = s.opa := rfl
@[simp] theorem setBufLen_opb (v : Word32) (s : State) : (setBufLen v s).opb = s.opb := rfl
@[simp] theorem setBufLen_opc (v : Word32) (s : State) : (setBufLen v s).opc = s.opc := rfl
@[simp] theorem setBufLen_result (v : Word32) (s : State) : (setBufLen v s).result = s.result := rfl
@[simp] theorem setBufLen_start (v : Word32) (s : State) : (setBufLen v s).start = s.start := rfl
@[simp] theorem setBufLen_bufLen (v : Word32) (s : State) : (setBufLen v s).bufLen = v := rfl
@[simp] theorem setBufLen_faultCmd (v : Word32) (s : State) : (setBufLen v s).faultCmd = s.faultCmd := rfl
@[simp] theorem setBufLen_buf (v : Word32) (s : State) : (setBufLen v s).buf = s.buf := rfl
@[simp] theorem setBufLen_params (v : Word32) (s : State) : (setBufLen v s).params = s.params := rfl
@[simp] theorem setBufLen_pending (v : Word32) (s : State) : (setBufLen v s).pending = s.pending := rfl
@[simp] theorem setBufLen_txIndex (v : Word32) (s : State) : (setBufLen v s).txIndex = s.txIndex := rfl
@[simp] theorem setBufLen_replies (v : Word32) (s : State) : (setBufLen v s).replies = s.replies := rfl

@[simp] theorem byteWrite_cmd (a : Nat) (v : Byte) (s : State) : (byteWrite a v s).cmd = s.cmd := rfl
@[simp] theorem byteWrite_status (a : Nat) (v : Byte) (s : State) : (byteWrite a v s).status = s.status := rfl
@[simp] theorem byteWrite_opa (a : Nat) (v : Byte) (s : State) : (byteWrite a v s).opa = s.opa := rfl
@[simp] theorem byteWrite_opb (a : Nat) (v : Byte) (s : State) : (byteWrite a v s).opb = s.opb := rfl
@[simp] theorem byteWrite_opc (a : Nat) (v : Byte) (s : State) : (byteWrite a v s).opc = s.opc := rfl
@[simp] theorem byteWrite_result (a : Nat) (v : Byte) (s : State) : (byteWrite a v s).result = s.result := rfl
@[simp] theorem byteWrite_start (a : Nat) (v : Byte) (s : State) : (byteWrite a v s).start = s.start := rfl
@[simp] theorem byteWrite_bufLen (a : Nat) (v : Byte) (s : State) : (byteWrite a v s).bufLen = s.bufLen := rfl
@[simp] theorem byteWrite_faultCmd (a : Nat) (v : Byte) (s : State) : (byteWrite a v s).faultCmd = s.faultCmd := rfl
@[simp] theorem byteWrite_buf (a : Nat) (v : Byte) (s : State) : (byteWrite a v s).buf = Memory.write s.buf a v := rfl
@[simp] theorem byteWrite_params (a : Nat) (v : Byte) (s : State) : (byteWrite a v s).params = s.params := rfl
@[simp] theorem byteWrite_pending (a : Nat) (v : Byte) (s : State) : (byteWrite a v s).pending = s.pending := rfl
@[simp] theorem byteWrite_txIndex (a : Nat) (v : Byte) (s : State) : (byteWrite a v s).txIndex = s.txIndex := rfl
@[simp] theorem byteWrite_replies (a : Nat) (v : Byte) (s : State) : (byteWrite a v s).replies = s.replies := rfl

@[simp] theorem hardReset_cmd (s : State) : (hardReset s).cmd = 0 := rfl
@[simp] theorem hardReset_status (s : State) : (hardReset s).status = 0 := rfl
@[simp] theorem hardReset_opa (s : State) : (hardReset s).opa = 0 := rfl
@[simp] theorem hardReset_opb (s : State) : (hardReset s).opb = 0 := rfl
@[simp] theorem hardReset_opc (s : State) : (hardReset s).opc = 0 := rfl
@[simp] theorem hardReset_result (s : State) : (hardReset s).result = 0 := rfl
@[simp] theorem hardReset_start (s : State) : (hardReset s).start = 0 := rfl
@[simp] theorem hardReset_bufLen (s : State) : (hardReset s).bufLen = 0 := rfl
@[simp] theorem hardReset_faultCmd (s : State) : (hardReset s).faultCmd = 0 := rfl
@[simp] theorem hardReset_buf (s : State) : (hardReset s).buf = s.buf := rfl
@[simp] theorem hardReset_params (s : State) : (hardReset s).params = s.params := rfl
@[simp] theorem hardReset_pending (s : State) : (hardReset s).pending = s.pending := rfl
@[simp] theorem hardReset_txIndex (s : State) : (hardReset s).txIndex = s.txIndex := rfl
@[simp] theorem hardReset_replies (s : State) : (hardReset s).replies = s.replies := rfl

@[simp] theorem advance_cmd (rest : List HostEvent) (s : State) : (advance rest s).cmd = s.cmd := rfl
@[simp] theorem advance_status (rest : List HostEvent) (s : State) : (advance rest s).status = s.status := rfl
@[simp] theorem advance_opa (rest : List HostEvent) (s : State) : (advance rest s).opa = s.opa := rfl
@[simp] theorem advance_opb (rest : List HostEvent) (s : State) : (advance rest s).opb = s.opb := rfl
@[simp] theorem advance_opc (rest : List HostEvent) (s : State) : (advance rest s).opc = s.opc := rfl
@[simp] theorem advance_result (rest : List HostEvent) (s : State) : (advance rest s).result = s.result := rfl
@[simp] theorem advance_start (rest : List HostEvent) (s : State) : (advance rest s).start = s.start := rfl
@[simp] theorem advance_bufLen (rest : List HostEvent) (s : State) : (advance rest s).bufLen = s.bufLen := rfl
@[simp] theorem advance_faultCmd (rest : List HostEvent) (s : State) : (advance rest s).faultCmd = s.faultCmd := rfl
@[simp] theorem advance_buf (rest : List HostEvent) (s : State) : (advance rest s).buf = s.buf := rfl
@[simp] theorem advance_params (rest : List HostEvent) (s : State) : (advance rest s).params = s.params := rfl
@[simp] theorem advance_pending (rest : List HostEvent) (s : State) : (advance rest s).pending = rest := rfl
@[simp] theorem advance_txIndex (rest : List HostEvent) (s : State) : (advance rest s).txIndex = s.txIndex + 1 := rfl
@[simp] theorem advance_replies (rest : List HostEvent) (s : State) : (advance rest s).replies = s.replies := rfl

@[simp] theorem presentCommand_cmd (w : Word32) (s : State) : (presentCommand w s).cmd = s.cmd := rfl
@[simp] theorem presentCommand_status (w : Word32) (s : State) : (presentCommand w s).status = s.status := rfl
@[simp] theorem presentCommand_opa (w : Word32) (s : State) : (presentCommand w s).opa = s.opa := rfl
@[simp] theorem presentCommand_opb (w : Word32) (s : State) : (presentCommand w s).opb = s.opb := rfl
@[simp] theorem presentCommand_opc (w : Word32) (s : State) : (presentCommand w s).opc = s.opc := rfl
@[simp] theorem presentCommand_result (w : Word32) (s : State) : (presentCommand w s).result = s.result := rfl
@[simp] theorem presentCommand_start (w : Word32) (s : State) : (presentCommand w s).start = s.start := rfl
@[simp] theorem presentCommand_bufLen (w : Word32) (s : State) : (presentCommand w s).bufLen = s.bufLen := rfl
@[simp] theorem presentCommand_faultCmd (w : Word32) (s : State) : (presentCommand w s).faultCmd = s.faultCmd := rfl
@[simp] theorem presentCommand_buf (w : Word32) (s : State) : (presentCommand w s).buf = s.buf := rfl
@[simp] theorem presentCommand_params (w : Word32) (s : State) : (presentCommand w s).params = s.params := rfl
@[simp] theorem presentCommand_pending (w : Word32) (s : State) : (presentCommand w s).pending = commandEvent s.params w :: s.pending := rfl
@[simp] theorem presentCommand_txIndex (w : Word32) (s : State) : (presentCommand w s).txIndex = s.txIndex := rfl
@[simp] theorem presentCommand_replies (w : Word32) (s : State) : (presentCommand w s).replies = s.replies := rfl

@[simp] theorem launch_cmd (p : Params) (image : Memory) : (State.launch p image).cmd = 0 := rfl
@[simp] theorem launch_status (p : Params) (image : Memory) : (State.launch p image).status = 0 := rfl
@[simp] theorem launch_opa (p : Params) (image : Memory) : (State.launch p image).opa = 0 := rfl
@[simp] theorem launch_opb (p : Params) (image : Memory) : (State.launch p image).opb = 0 := rfl
@[simp] theorem launch_opc (p : Params) (image : Memory) : (State.launch p image).opc = 0 := rfl
@[simp] theorem launch_result (p : Params) (image : Memory) : (State.launch p image).result = 0 := rfl
@[simp] theorem launch_start (p : Params) (image : Memory) : (State.launch p image).start = 0 := rfl
@[simp] theorem launch_bufLen (p : Params) (image : Memory) : (State.launch p image).bufLen = 0 := rfl
@[simp] theorem launch_faultCmd (p : Params) (image : Memory) : (State.launch p image).faultCmd = 0 := rfl
@[simp] theorem launch_buf (p : Params) (image : Memory) : (State.launch p image).buf = image := rfl
@[simp] theorem launch_params (p : Params) (image : Memory) : (State.launch p image).params = p := rfl
@[simp] theorem launch_pending (p : Params) (image : Memory) : (State.launch p image).pending = [] := rfl
@[simp] theorem launch_txIndex (p : Params) (image : Memory) : (State.launch p image).txIndex = 0 := rfl
@[simp] theorem launch_replies (p : Params) (image : Memory) : (State.launch p image).replies = [] := rfl

end Sys2Proof.Machine
end

