-- ==== Sys2Proof/Laws/Ops.lean ====
section
/-! SUPPORT. What each shared operation can do, said once: the commands' common execution, the host port and the step. -/

namespace Sys2Proof.Machine

/-! ### The checks -/

/-- The buffer checks pass exactly where the buffer exists and the access is in bounds (41_codec.md R151). -/
theorem checkBuffer_none_iff (b : Nat) (s : State) :
    checkBuffer b s = none ↔ s.bufLen.toNat ≤ s.params.bufCap ∧ 0 ≤ s.start.toInt ∧ s.start.toInt + b < s.bufLen.toNat := by
  unfold checkBuffer inBounds bufferLength startOffset
  split
  · simp; omega
  · split <;> simp_all

/-- E_NOBUF is the first check (60_exceptions.md R203). -/
theorem checkBuffer_noBuf_iff (b : Nat) (s : State) :
    checkBuffer b s = some .noBuf ↔ s.params.bufCap < s.bufLen.toNat := by
  unfold checkBuffer bufferLength
  split
  · simp_all
  · split <;> simp_all

/-- E_BOUNDS is the second check (60_exceptions.md R204). -/
theorem checkBuffer_bounds_iff (b : Nat) (s : State) :
    checkBuffer b s = some .bounds ↔
      s.bufLen.toNat ≤ s.params.bufCap ∧ (s.start.toInt < 0 ∨ s.bufLen.toNat ≤ s.start.toInt + b) := by
  unfold checkBuffer inBounds bufferLength startOffset
  split
  · simp; omega
  · split
    · simp_all
    · simp_all; omega

/-- The checks raise no other fault. -/
theorem checkBuffer_cases (b : Nat) (s : State) :
    checkBuffer b s = none ∨ checkBuffer b s = some .noBuf ∨ checkBuffer b s = some .bounds := by
  unfold checkBuffer
  split
  · simp
  · split <;> simp

/-! ### Common execution -/

/-- Everything a command can do (40_bitops.md R105, 41_codec.md R151): write RESULT, store `b` bytes in the checked
span, or raise a fault after its checks. -/
inductive CommandEffect (s : State) : State → Prop where
  /-- RESULT is written. -/
  | result (v : Word64) : CommandEffect s (setResult v s)
  /-- The checked span of BUF is written. -/
  | stored {n : Nat} (b : Nat) (v : BitVec n) (h : checkBuffer b s = none) :
      CommandEffect s (setBuf (storeBE s.buf (bufStart s) v b) s)
  /-- A fault is raised. -/
  | faulted (c : FaultCode) (hc : c ≠ .illegal) : CommandEffect s (raiseFault c s)

theorem writeResult_effect (v : Word64) (s : State) : ∃ t, writeResult v s = .next t ∧ CommandEffect s t :=
  ⟨_, rfl, .result v⟩

theorem hashCommand_effect (k : Nat) (h : Word32) (s : State) :
    ∃ t, hashCommand k h s = .next t ∧ CommandEffect s t := by
  unfold hashCommand
  split
  · exact ⟨_, rfl, .faulted .range (by decide)⟩
  · exact ⟨_, rfl, .result _⟩

theorem writeCommand_effect {n : Nat} (b : Nat) (v : BitVec n) (s : State) :
    ∃ t, writeCommand b v s = .next t ∧ CommandEffect s t := by
  unfold writeCommand
  rcases checkBuffer_cases b s with h | h | h
  · rw [h]; exact ⟨_, rfl, .stored b v h⟩
  · rw [h]; exact ⟨_, rfl, .faulted .noBuf (by decide)⟩
  · rw [h]; exact ⟨_, rfl, .faulted .bounds (by decide)⟩

theorem readCommand_effect (b : Nat) (r : Word64) (s : State) :
    ∃ t, readCommand b r s = .next t ∧ CommandEffect s t := by
  unfold readCommand
  rcases checkBuffer_cases b s with h | h | h
  · rw [h]; exact ⟨_, rfl, .result r⟩
  · rw [h]; exact ⟨_, rfl, .faulted .noBuf (by decide)⟩
  · rw [h]; exact ⟨_, rfl, .faulted .bounds (by decide)⟩

/-- Every command answers a next state, by one of its three effects. -/
theorem exec_effect (i : Instr) (s : State) : ∃ t, exec i s = .next t ∧ CommandEffect s t := by
  cases i with
  | foldU8 => exact writeResult_effect _ s
  | foldS8 => exact writeResult_effect _ s
  | foldU16 => exact writeResult_effect _ s
  | foldS16 => exact writeResult_effect _ s
  | foldU32 => exact writeResult_effect _ s
  | foldS32 => exact writeResult_effect _ s
  | foldU64 => exact writeResult_effect _ s
  | foldS64 => exact writeResult_effect _ s
  | highbitU8 => exact writeResult_effect _ s
  | highbitS8 => exact writeResult_effect _ s
  | highbitU16 => exact writeResult_effect _ s
  | highbitS16 => exact writeResult_effect _ s
  | highbitU32 => exact writeResult_effect _ s
  | highbitS32 => exact writeResult_effect _ s
  | highbitU64 => exact writeResult_effect _ s
  | highbitS64 => exact writeResult_effect _ s
  | log2U32 => exact writeResult_effect _ s
  | popcntU32 => exact writeResult_effect _ s
  | popcntS32 => exact writeResult_effect _ s
  | uhashU32 k => exact hashCommand_effect _ _ s
  | uhashS32 k => exact hashCommand_effect _ _ s
  | uhashU64 k => exact hashCommand_effect _ _ s
  | uhashS64 k => exact hashCommand_effect _ _ s
  | swapU16 => exact writeResult_effect _ s
  | swapS16 => exact writeResult_effect _ s
  | swapU32 => exact writeResult_effect _ s
  | swapS32 => exact writeResult_effect _ s
  | swapU64 => exact writeResult_effect _ s
  | swapS64 => exact writeResult_effect _ s
  | writeU8 => exact writeCommand_effect _ _ s
  | writeS8 => exact writeCommand_effect _ _ s
  | writeU16 => exact writeCommand_effect _ _ s
  | writeS16 => exact writeCommand_effect _ _ s
  | writeU32 => exact writeCommand_effect _ _ s
  | writeS32 => exact writeCommand_effect _ _ s
  | writeU64 => exact writeCommand_effect _ _ s
  | writeS64 => exact writeCommand_effect _ _ s
  | writeF32 => exact writeCommand_effect _ _ s
  | writeF64 => exact writeCommand_effect _ _ s
  | readU8 => exact readCommand_effect _ _ s
  | readS8 => exact readCommand_effect _ _ s
  | readU16 => exact readCommand_effect _ _ s
  | readS16 => exact readCommand_effect _ _ s
  | readU32 => exact readCommand_effect _ _ s
  | readS32 => exact readCommand_effect _ _ s
  | readU64 => exact readCommand_effect _ _ s
  | readS64 => exact readCommand_effect _ _ s
  | readF32 => exact readCommand_effect _ _ s
  | readF64 => exact readCommand_effect _ _ s

/-! ### The host port -/

/-- What a write of a command word does (30_encoding.md R80, 60_exceptions.md R208). -/
theorem commandWrite_cases (w : Word32) (s : State) :
    (faultBit s = true ∧ commandWrite w s = .next s) ∨
    (faultBit s = false ∧ ∃ i, decode w = .ok i ∧ commandWrite w s = exec i (latchCommand w s)) ∨
    (faultBit s = false ∧ ∃ e, decode w = .error e ∧ commandWrite w s = .next (raiseFault .illegal (latchCommand w s))) := by
  unfold commandWrite
  cases hf : faultBit s
  · cases hd : decode w with
    | ok i => exact .inr (.inl ⟨rfl, i, rfl, rfl⟩)
    | error e => exact .inr (.inr ⟨rfl, e, rfl, rfl⟩)
  · exact .inl ⟨rfl, rfl⟩

/-- Everything one line of the host's list can do to the state that has taken the line. -/
inductive HostEffect (s : State) : State → Prop where
  /-- A reply and nothing else: a read, a bus error, an ignored write. -/
  | replied (r : Reply) : HostEffect s (logReply r s)
  /-- OPA is written. -/
  | opa (v : Word64) : HostEffect s (setOpa v (logReply .done s))
  /-- OPB is written. -/
  | opb (v : Word64) : HostEffect s (setOpb v (logReply .done s))
  /-- OPC is written. -/
  | opc (v : Word64) : HostEffect s (setOpc v (logReply .done s))
  /-- START is written. -/
  | start (v : Word32) : HostEffect s (setStart v (logReply .done s))
  /-- BUFLEN is written. -/
  | bufLen (v : Word32) : HostEffect s (setBufLen v (logReply .done s))
  /-- A byte of BUF is written. -/
  | byte (a : Nat) (v : Byte) (h : a < s.params.bufCap) : HostEffect s (byteWrite a v (logReply .done s))
  /-- A command executes. -/
  | command (w : Word32) (i : Instr) (t : State) (hf : faultBit s = false) (hd : decode w = .ok i)
      (hx : exec i (latchCommand w (logReply .done s)) = .next t) : HostEffect s t
  /-- A word that does not decode faults. -/
  | illegal (w : Word32) (hf : faultBit s = false) (e : DecodeReject) (hd : decode w = .error e) :
      HostEffect s (raiseFault .illegal (latchCommand w (logReply .done s)))
  /-- The reset input. -/
  | reset : HostEffect s (hardReset s)

/-- A buffer byte that a transaction reaches lies within the capacity (20_memory.md R65). -/
theorem portTarget_byte_lt {p : Params} {addr width a : Nat} (h : portTarget p addr width = some (.byte a)) :
    a < p.bufCap := by
  unfold portTarget at h
  split at h
  · cases h
  split at h
  · cases hr : regAt (addr - p.bmuBase) width <;> simp [hr] at h
  split at h
  · next hc =>
    simp only [Option.some.injEq, PortTarget.byte.injEq] at h
    exact h ▸ hc.2
  · cases h

theorem regWrite_effect (r : Reg) (v : Word64) (s : State) :
    ∃ t, regWrite r v (logReply .done s) = .next t ∧ HostEffect s t := by
  cases r with
  | cmd =>
    rcases commandWrite_cases (v.setWidth 32) (logReply .done s) with ⟨_, h⟩ | ⟨hf, i, hd, h⟩ | ⟨hf, e, hd, h⟩
    · exact ⟨_, h, .replied _⟩
    · obtain ⟨t, ht, _⟩ := exec_effect i (latchCommand (v.setWidth 32) (logReply .done s))
      exact ⟨t, h.trans ht, .command _ i t hf hd ht⟩
    · exact ⟨_, h, .illegal _ hf e hd⟩
  | opa => exact ⟨_, rfl, .opa v⟩
  | opb => exact ⟨_, rfl, .opb v⟩
  | opc => exact ⟨_, rfl, .opc v⟩
  | start => exact ⟨_, rfl, .start _⟩
  | bufLen => exact ⟨_, rfl, .bufLen _⟩
  | status => exact ⟨_, rfl, .replied _⟩
  | result => exact ⟨_, rfl, .replied _⟩
  | faultCmd => exact ⟨_, rfl, .replied _⟩
  | cap => exact ⟨_, rfl, .replied _⟩

/-- Every line of the host's list is answered, by one of its effects. -/
theorem hostEvent_effect (e : HostEvent) (s : State) : ∃ t, hostEvent e s = .next t ∧ HostEffect s t := by
  cases e with
  | read addr width =>
    refine ⟨_, rfl, ?_⟩
    unfold hostRead
    split <;> exact .replied _
  | write addr width data =>
    simp only [hostEvent, hostWrite]
    split
    · exact regWrite_effect _ _ s
    · next h => exact ⟨_, rfl, .byte _ _ (portTarget_byte_lt h)⟩
    · exact ⟨_, rfl, .replied _⟩
  | reset => exact ⟨_, rfl, .reset⟩

/-- A read adds the one reply that says what it returned (70_reset_and_hazards.md R241 item 1). -/
theorem hostRead_reply (addr width : Nat) (s : State) :
    ∃ r, hostRead addr width s = logReply r s ∧ isReadReply r = true := by
  unfold hostRead
  split
  · next r _ => exact ⟨_, rfl, by cases r <;> rfl⟩
  · exact ⟨_, rfl, rfl⟩
  · exact ⟨_, rfl, rfl⟩

/-- A command leaves the replies alone. -/
theorem exec_replies {i : Instr} {s t : State} (h : exec i s = .next t) : t.replies = s.replies := by
  obtain ⟨t', ht', he⟩ := exec_effect i s
  rw [ht'] at h
  cases h
  cases he <;> simp

theorem regWrite_replies {r : Reg} {v : Word64} {s t : State} (h : regWrite r v s = .next t) : t.replies = s.replies := by
  cases r with
  | cmd =>
    simp only [regWrite] at h
    rcases commandWrite_cases (v.setWidth 32) s with ⟨_, h'⟩ | ⟨_, i, _, h'⟩ | ⟨_, e, _, h'⟩
    · rw [h'] at h; cases h; rfl
    · rw [h'] at h; rw [exec_replies h]; simp
    · rw [h'] at h; cases h; simp
  | _ => simp only [regWrite, Host.Outcome.next.injEq] at h; subst h; simp

/-- A write adds one reply, and none that says what a read returned. -/
theorem hostWrite_reply {addr width : Nat} {d : BitVec width} {s t : State} (h : hostWrite addr width d s = .next t) :
    ∃ r, t.replies = s.replies ++ [r] ∧ isReadReply r = false := by
  unfold hostWrite at h
  split at h
  · exact ⟨.done, by rw [regWrite_replies h]; simp, rfl⟩
  · cases h; exact ⟨.done, by simp, rfl⟩
  · cases h; exact ⟨.writeBusError, by simp, rfl⟩

@[simp] theorem faultBit_advance (rest : List HostEvent) (s : State) : faultBit (advance rest s) = faultBit s := rfl

@[simp] theorem faultBit_logReply (r : Reply) (s : State) : faultBit (logReply r s) = faultBit s := rfl

@[simp] theorem faultBit_raiseFault (c : FaultCode) (s : State) : faultBit (raiseFault c s) = true := by
  have h : ∀ c, BitVec.getLsbD (statusWord c) 0 = true := fun c => by cases c <;> decide
  exact h c

@[simp] theorem faultBit_hardReset (s : State) : faultBit (hardReset s) = false := by
  exact (by decide : BitVec.getLsbD (0 : Word32) 0 = false)

/-- The word written to CMD reaches it: offset 0, 32 bits (20_memory.md R50). -/
theorem portTarget_cmd (p : Params) : portTarget p p.bmuBase 32 = some (.reg .cmd) := by
  simp [portTarget, bufWindow, regAt, allRegs, regOffset, regWidth]

end Sys2Proof.Machine
end

