-- ==== Sys2Proof/Laws/Exec.lean ====
section
/-! SUPPORT. Which shared operation each command is, said once for all commands. -/

namespace Sys2Proof.Machine

/-- A command is a value command, a hash, a store or a load; its bytes and its bit count say which. -/
inductive CommandShape (i : Instr) (s : State) : Prop where
  /-- It writes a value to RESULT and cannot fault. -/
  | value (v : Word64) (hx : exec i s = writeResult v s) (hb : accessBytes i = none) (hk : bitCount i = none)
      (hw : isWrite i = false)
  /-- It is a UHASH of `k` bits. -/
  | hash (k : Nat) (h : Word32) (hx : exec i s = hashCommand k h s) (hb : accessBytes i = none) (hk : bitCount i = some k)
      (hw : isWrite i = false)
  /-- It is a WRITE of `b` bytes. -/
  | store {n : Nat} (b : Nat) (v : BitVec n) (hx : exec i s = writeCommand b v s) (hb : accessBytes i = some b)
      (hk : bitCount i = none) (hw : isWrite i = true)
  /-- It is a READ of `b` bytes. -/
  | load (b : Nat) (r : Word64) (hx : exec i s = readCommand b r s) (hb : accessBytes i = some b)
      (hk : bitCount i = none) (hw : isWrite i = false)

theorem exec_shape (i : Instr) (s : State) : CommandShape i s := by
  cases i with
  | foldU8 => exact .value _ rfl rfl rfl rfl
  | foldS8 => exact .value _ rfl rfl rfl rfl
  | foldU16 => exact .value _ rfl rfl rfl rfl
  | foldS16 => exact .value _ rfl rfl rfl rfl
  | foldU32 => exact .value _ rfl rfl rfl rfl
  | foldS32 => exact .value _ rfl rfl rfl rfl
  | foldU64 => exact .value _ rfl rfl rfl rfl
  | foldS64 => exact .value _ rfl rfl rfl rfl
  | highbitU8 => exact .value _ rfl rfl rfl rfl
  | highbitS8 => exact .value _ rfl rfl rfl rfl
  | highbitU16 => exact .value _ rfl rfl rfl rfl
  | highbitS16 => exact .value _ rfl rfl rfl rfl
  | highbitU32 => exact .value _ rfl rfl rfl rfl
  | highbitS32 => exact .value _ rfl rfl rfl rfl
  | highbitU64 => exact .value _ rfl rfl rfl rfl
  | highbitS64 => exact .value _ rfl rfl rfl rfl
  | log2U32 => exact .value _ rfl rfl rfl rfl
  | popcntU32 => exact .value _ rfl rfl rfl rfl
  | popcntS32 => exact .value _ rfl rfl rfl rfl
  | uhashU32 k => exact .hash _ _ rfl rfl rfl rfl
  | uhashS32 k => exact .hash _ _ rfl rfl rfl rfl
  | uhashU64 k => exact .hash _ _ rfl rfl rfl rfl
  | uhashS64 k => exact .hash _ _ rfl rfl rfl rfl
  | swapU16 => exact .value _ rfl rfl rfl rfl
  | swapS16 => exact .value _ rfl rfl rfl rfl
  | swapU32 => exact .value _ rfl rfl rfl rfl
  | swapS32 => exact .value _ rfl rfl rfl rfl
  | swapU64 => exact .value _ rfl rfl rfl rfl
  | swapS64 => exact .value _ rfl rfl rfl rfl
  | writeU8 => exact .store _ _ rfl rfl rfl rfl
  | writeS8 => exact .store _ _ rfl rfl rfl rfl
  | writeU16 => exact .store _ _ rfl rfl rfl rfl
  | writeS16 => exact .store _ _ rfl rfl rfl rfl
  | writeU32 => exact .store _ _ rfl rfl rfl rfl
  | writeS32 => exact .store _ _ rfl rfl rfl rfl
  | writeU64 => exact .store _ _ rfl rfl rfl rfl
  | writeS64 => exact .store _ _ rfl rfl rfl rfl
  | writeF32 => exact .store _ _ rfl rfl rfl rfl
  | writeF64 => exact .store _ _ rfl rfl rfl rfl
  | readU8 => exact .load _ _ rfl rfl rfl rfl
  | readS8 => exact .load _ _ rfl rfl rfl rfl
  | readU16 => exact .load _ _ rfl rfl rfl rfl
  | readS16 => exact .load _ _ rfl rfl rfl rfl
  | readU32 => exact .load _ _ rfl rfl rfl rfl
  | readS32 => exact .load _ _ rfl rfl rfl rfl
  | readU64 => exact .load _ _ rfl rfl rfl rfl
  | readS64 => exact .load _ _ rfl rfl rfl rfl
  | readF32 => exact .load _ _ rfl rfl rfl rfl
  | readF64 => exact .load _ _ rfl rfl rfl rfl

/-- A store or load that passes its checks, and one that does not (41_codec.md R151). -/
theorem writeCommand_of_allowed {n b : Nat} {v : BitVec n} {s : State} (h : checkBuffer b s = none) :
    writeCommand b v s = .next (setBuf (storeBE s.buf (bufStart s) v b) s) := by
  simp [writeCommand, h]

theorem writeCommand_of_fault {n b : Nat} {v : BitVec n} {s : State} {c : FaultCode} (h : checkBuffer b s = some c) :
    writeCommand b v s = .next (raiseFault c s) := by
  simp [writeCommand, h]

theorem readCommand_of_allowed {b : Nat} {r : Word64} {s : State} (h : checkBuffer b s = none) :
    readCommand b r s = .next (setResult r s) := by
  simp [readCommand, h, writeResult]

theorem readCommand_of_fault {b : Nat} {r : Word64} {s : State} {c : FaultCode} (h : checkBuffer b s = some c) :
    readCommand b r s = .next (raiseFault c s) := by
  simp [readCommand, h]

theorem hashCommand_of_le {k : Nat} {h : Word32} {s : State} (hk : k ≤ 32) :
    hashCommand k h s = .next (setResult (widenUnsigned h) s) := by
  simp [hashCommand, writeResult, Nat.not_lt.2 hk]

theorem hashCommand_of_gt {k : Nat} {h : Word32} {s : State} (hk : 32 < k) :
    hashCommand k h s = .next (raiseFault .range s) := by
  simp [hashCommand, hk]

end Sys2Proof.Machine
end

