-- ==== Sys2Proof/Laws/PerInstr.lean ====
section
/-! SUPPORT. Facts about the instructions as syntax, one lemma per constructor. -/

namespace Sys2Proof.Laws

/-- The fields of a well-formed command's word form a legal combination (30_encoding.md R78). -/
def EncodingIsLegal.Statement (i : Instr) : Prop :=
  i.wellFormed = true → Machine.legalCombination (encode i) = true

/-- For the four types of UHASH: the check on all 64 bit counts. -/
theorem hash_legal_of_all {f : Nat → Instr} (hw : ∀ k, (f k).wellFormed = bitCountFits k)
    (h : ∀ k < 64, Machine.legalCombination (encode (f k)) = true) (k : Nat) : EncodingIsLegal.Statement (f k) :=
  fun hk => h k (of_decide_eq_true ((hw k).symm.trans hk))

theorem EncodingIsLegal.foldU8 : EncodingIsLegal.Statement .foldU8 := fun _ => by decide

theorem EncodingIsLegal.foldS8 : EncodingIsLegal.Statement .foldS8 := fun _ => by decide

theorem EncodingIsLegal.foldU16 : EncodingIsLegal.Statement .foldU16 := fun _ => by decide

theorem EncodingIsLegal.foldS16 : EncodingIsLegal.Statement .foldS16 := fun _ => by decide

theorem EncodingIsLegal.foldU32 : EncodingIsLegal.Statement .foldU32 := fun _ => by decide

theorem EncodingIsLegal.foldS32 : EncodingIsLegal.Statement .foldS32 := fun _ => by decide

theorem EncodingIsLegal.foldU64 : EncodingIsLegal.Statement .foldU64 := fun _ => by decide

theorem EncodingIsLegal.foldS64 : EncodingIsLegal.Statement .foldS64 := fun _ => by decide

theorem EncodingIsLegal.highbitU8 : EncodingIsLegal.Statement .highbitU8 := fun _ => by decide

theorem EncodingIsLegal.highbitS8 : EncodingIsLegal.Statement .highbitS8 := fun _ => by decide

theorem EncodingIsLegal.highbitU16 : EncodingIsLegal.Statement .highbitU16 := fun _ => by decide

theorem EncodingIsLegal.highbitS16 : EncodingIsLegal.Statement .highbitS16 := fun _ => by decide

theorem EncodingIsLegal.highbitU32 : EncodingIsLegal.Statement .highbitU32 := fun _ => by decide

theorem EncodingIsLegal.highbitS32 : EncodingIsLegal.Statement .highbitS32 := fun _ => by decide

theorem EncodingIsLegal.highbitU64 : EncodingIsLegal.Statement .highbitU64 := fun _ => by decide

theorem EncodingIsLegal.highbitS64 : EncodingIsLegal.Statement .highbitS64 := fun _ => by decide

theorem EncodingIsLegal.log2U32 : EncodingIsLegal.Statement .log2U32 := fun _ => by decide

theorem EncodingIsLegal.popcntU32 : EncodingIsLegal.Statement .popcntU32 := fun _ => by decide

theorem EncodingIsLegal.popcntS32 : EncodingIsLegal.Statement .popcntS32 := fun _ => by decide

theorem EncodingIsLegal.uhashU32 (k : Nat) : EncodingIsLegal.Statement (.uhashU32 k) :=
  hash_legal_of_all (fun _ => rfl) (by decide) k

theorem EncodingIsLegal.uhashS32 (k : Nat) : EncodingIsLegal.Statement (.uhashS32 k) :=
  hash_legal_of_all (fun _ => rfl) (by decide) k

theorem EncodingIsLegal.uhashU64 (k : Nat) : EncodingIsLegal.Statement (.uhashU64 k) :=
  hash_legal_of_all (fun _ => rfl) (by decide) k

theorem EncodingIsLegal.uhashS64 (k : Nat) : EncodingIsLegal.Statement (.uhashS64 k) :=
  hash_legal_of_all (fun _ => rfl) (by decide) k

theorem EncodingIsLegal.swapU16 : EncodingIsLegal.Statement .swapU16 := fun _ => by decide

theorem EncodingIsLegal.swapS16 : EncodingIsLegal.Statement .swapS16 := fun _ => by decide

theorem EncodingIsLegal.swapU32 : EncodingIsLegal.Statement .swapU32 := fun _ => by decide

theorem EncodingIsLegal.swapS32 : EncodingIsLegal.Statement .swapS32 := fun _ => by decide

theorem EncodingIsLegal.swapU64 : EncodingIsLegal.Statement .swapU64 := fun _ => by decide

theorem EncodingIsLegal.swapS64 : EncodingIsLegal.Statement .swapS64 := fun _ => by decide

theorem EncodingIsLegal.writeU8 : EncodingIsLegal.Statement .writeU8 := fun _ => by decide

theorem EncodingIsLegal.writeS8 : EncodingIsLegal.Statement .writeS8 := fun _ => by decide

theorem EncodingIsLegal.writeU16 : EncodingIsLegal.Statement .writeU16 := fun _ => by decide

theorem EncodingIsLegal.writeS16 : EncodingIsLegal.Statement .writeS16 := fun _ => by decide

theorem EncodingIsLegal.writeU32 : EncodingIsLegal.Statement .writeU32 := fun _ => by decide

theorem EncodingIsLegal.writeS32 : EncodingIsLegal.Statement .writeS32 := fun _ => by decide

theorem EncodingIsLegal.writeU64 : EncodingIsLegal.Statement .writeU64 := fun _ => by decide

theorem EncodingIsLegal.writeS64 : EncodingIsLegal.Statement .writeS64 := fun _ => by decide

theorem EncodingIsLegal.writeF32 : EncodingIsLegal.Statement .writeF32 := fun _ => by decide

theorem EncodingIsLegal.writeF64 : EncodingIsLegal.Statement .writeF64 := fun _ => by decide

theorem EncodingIsLegal.readU8 : EncodingIsLegal.Statement .readU8 := fun _ => by decide

theorem EncodingIsLegal.readS8 : EncodingIsLegal.Statement .readS8 := fun _ => by decide

theorem EncodingIsLegal.readU16 : EncodingIsLegal.Statement .readU16 := fun _ => by decide

theorem EncodingIsLegal.readS16 : EncodingIsLegal.Statement .readS16 := fun _ => by decide

theorem EncodingIsLegal.readU32 : EncodingIsLegal.Statement .readU32 := fun _ => by decide

theorem EncodingIsLegal.readS32 : EncodingIsLegal.Statement .readS32 := fun _ => by decide

theorem EncodingIsLegal.readU64 : EncodingIsLegal.Statement .readU64 := fun _ => by decide

theorem EncodingIsLegal.readS64 : EncodingIsLegal.Statement .readS64 := fun _ => by decide

theorem EncodingIsLegal.readF32 : EncodingIsLegal.Statement .readF32 := fun _ => by decide

theorem EncodingIsLegal.readF64 : EncodingIsLegal.Statement .readF64 := fun _ => by decide

end Sys2Proof.Laws
end

