-- ==== Sys2Proof/Laws/Step.lean ====
section
/-! SUPPORT. What one step can do, said once. -/

namespace Sys2Proof.Machine

theorem step_nil {s : State} (h : s.pending = []) : step s = .next s := by simp [step, stepHost, h]

theorem step_cons {s : State} {e : HostEvent} {rest : List HostEvent} (h : s.pending = e :: rest) :
    step s = hostEvent e (advance rest s) := by simp [step, stepHost, h]

/-- A step either finds no line and leaves the state, or takes one line and has one of its effects. -/
theorem step_effect {s t : State} (h : step s = .next t) :
    (s.pending = [] ∧ t = s) ∨ ∃ e rest, s.pending = e :: rest ∧ HostEffect (advance rest s) t := by
  cases hp : s.pending with
  | nil =>
    rw [step_nil hp] at h
    cases h
    exact .inl ⟨rfl, rfl⟩
  | cons e rest =>
    rw [step_cons hp] at h
    obtain ⟨t', ht', he⟩ := hostEvent_effect e (advance rest s)
    rw [h] at ht'
    cases ht'
    exact .inr ⟨e, rest, rfl, he⟩

/-- Every step answers a next state. -/
theorem step_answers (s : State) : ∃ t, step s = .next t ∧
    ((s.pending = [] ∧ t = s) ∨ ∃ e rest, s.pending = e :: rest ∧ HostEffect (advance rest s) t) := by
  cases hp : s.pending with
  | nil => exact ⟨s, step_nil hp, .inl ⟨rfl, rfl⟩⟩
  | cons e rest =>
    obtain ⟨t, ht, he⟩ := hostEvent_effect e (advance rest s)
    exact ⟨t, (step_cons hp).trans ht, .inr ⟨e, rest, rfl, he⟩⟩

@[simp] theorem runSteps_zero (s : State) : runSteps 0 s = .next s := rfl

theorem runSteps_succ {s t : State} (k : Nat) (h : step s = .next t) : runSteps (k + 1) s = runSteps k t := by
  simp [runSteps, h]

theorem core_run_next {M : Host.Core} {s t : M.State} (k : Nat) (h : M.step s = .next t) :
    M.run (k + 1) s = M.run k t := by
  simp [Host.Core.run, h]

/-- The run the claims speak of is the host's run of the core. -/
theorem core_run_eq_runSteps (k : Nat) (s : State) : Host.Core.run Sys2Proof.core k s = runSteps k s := by
  induction k generalizing s with
  | zero => rfl
  | succ k ih =>
    obtain ⟨t, ht, _⟩ := step_answers s
    rw [runSteps_succ k ht]
    exact (core_run_next (M := Sys2Proof.core) k ht).trans (ih t)

end Sys2Proof.Machine
end

