-- ==== Sys2Proof/Tests/Slice0.lean ====
section
/-! SUPPORT. Tests. Expected values are those of 95_test_vectors.md (the section is named) or of the rule named; command
words are put together field by field from 30_encoding.md R71 to R76. Each test runs one step at most. -/

set_option maxRecDepth 8000

namespace Sys2Proof.Tests

open Sys2Proof.Machine

/-! ### Helpers -/

/-- A command word from its fields (30_encoding.md R71), reserved bits zero. -/
def fieldsWord (k f s w op : Nat) : Word32 :=
  0#18 ++ BitVec.ofNat 6 k ++ BitVec.ofNat 1 f ++ BitVec.ofNat 1 s ++ BitVec.ofNat 2 w ++ BitVec.ofNat 4 op

/-- The state after the step that executes `w`. -/
def after (w : Word32) (s : State) : Option State :=
  match step (s.withFetchWord 32 w.toNat) with
  | .next t => some t
  | .fault _ => none
  | .refused _ => none

/-- RESULT, STATUS and FAULTCMD after the step that executes `w`. -/
def resultOf (w : Word32) (s : State) : Option (Word64 × Word32 × Word32) :=
  (after w s).map (fun t => (t.result, t.status, t.faultCmd))

/-- The cells of BUF and STATUS after the step that executes `w`. -/
def storedBy (w : Word32) (s : State) : Option (Memory × Word32) := (after w s).map (fun t => (t.buf, t.status))

/-- The reset state with operands. -/
def operands (a b c : Word64) : State := { State.reset with opa := a, opb := b, opc := c }

/-- The reset state with a buffer of 16 bytes, all zero, a START and an operand (95 section 2.7). -/
def emptyBuffer (start : Word32) (a : Word64) : State := { State.reset with bufLen := 16, start := start, opa := a }

/-- The reset state with the buffer of 95 section 2.8 and a START. -/
def fullBuffer (start : Word32) : State :=
  { State.reset with
    bufLen := 16, start := start
    buf := [(0, 0x80), (1, 0x91), (2, 0xA2), (3, 0xB3), (4, 0xC4), (5, 0xD5), (6, 0xE6), (7, 0xF7), (8, 0x08), (9, 0x19),
            (10, 0x2A), (11, 0x3B), (12, 0x4C), (13, 0x5D), (14, 0x6E), (15, 0x7F)] }

/-- The reset state with the given host events to come. -/
def facing (e : List HostEvent) : State := { State.reset with pending := e }

/-- The reset state faulted by an illegal word, with the given host events to come. -/
def faultedFacing (e : List HostEvent) : State := { State.reset with cmd := 6, status := 0x11, faultCmd := 6, pending := e }

/-- The read entries of the outcome after one step on the given host events. -/
def outcomeReadsOf (e : List HostEvent) : Option (List Reply) :=
  match step (facing e) with
  | .next t => some (outcomeOf t).reads
  | .fault _ => none
  | .refused _ => none

/-! ### WellFormed refuses what no word stands for (30_encoding.md R76; 00_scope.md R6) -/

theorem test_illformed_uhashU32 : Instr.wellFormed (.uhashU32 64) = false ∧ Instr.wellFormed (.uhashU32 63) = true := by decide

theorem test_illformed_uhashS32 : Instr.wellFormed (.uhashS32 64) = false ∧ Instr.wellFormed (.uhashS32 63) = true := by decide

theorem test_illformed_uhashU64 : Instr.wellFormed (.uhashU64 64) = false ∧ Instr.wellFormed (.uhashU64 63) = true := by decide

theorem test_illformed_uhashS64 : Instr.wellFormed (.uhashS64 64) = false ∧ Instr.wellFormed (.uhashS64 63) = true := by decide

theorem test_illformed_capacity : Params.legal ⟨0, true, 0⟩ = false ∧ Params.legal ⟨2 ^ 31, true, 0⟩ = false ∧
    Params.legal ⟨2 ^ 31 - 1, false, 8⟩ = true := by decide

theorem test_illformed_base : Params.legal ⟨128, true, 4⟩ = false := by decide

/-! ### Decoding: one word for each constructor, and its inverse -/

theorem test_decode_fold :
    decode (fieldsWord 0 0 0 0 0x1) = .ok .foldU8 ∧
    decode (fieldsWord 0 0 1 0 0x1) = .ok .foldS8 ∧
    decode (fieldsWord 0 0 0 1 0x1) = .ok .foldU16 ∧
    decode (fieldsWord 0 0 1 1 0x1) = .ok .foldS16 ∧
    decode (fieldsWord 0 0 0 2 0x1) = .ok .foldU32 ∧
    decode (fieldsWord 0 0 1 2 0x1) = .ok .foldS32 ∧
    decode (fieldsWord 0 0 0 3 0x1) = .ok .foldU64 ∧
    decode (fieldsWord 0 0 1 3 0x1) = .ok .foldS64 := by decide

theorem test_decode_highbit :
    decode (fieldsWord 0 0 0 0 0x2) = .ok .highbitU8 ∧
    decode (fieldsWord 0 0 1 0 0x2) = .ok .highbitS8 ∧
    decode (fieldsWord 0 0 0 1 0x2) = .ok .highbitU16 ∧
    decode (fieldsWord 0 0 1 1 0x2) = .ok .highbitS16 ∧
    decode (fieldsWord 0 0 0 2 0x2) = .ok .highbitU32 ∧
    decode (fieldsWord 0 0 1 2 0x2) = .ok .highbitS32 ∧
    decode (fieldsWord 0 0 0 3 0x2) = .ok .highbitU64 ∧
    decode (fieldsWord 0 0 1 3 0x2) = .ok .highbitS64 := by decide

theorem test_decode_log2 :
    decode (fieldsWord 0 0 0 2 0x3) = .ok .log2U32 := by decide

theorem test_decode_popcnt :
    decode (fieldsWord 0 0 0 2 0x4) = .ok .popcntU32 ∧
    decode (fieldsWord 0 0 1 2 0x4) = .ok .popcntS32 := by decide

theorem test_decode_uhash :
    decode (fieldsWord 16 0 0 2 0x5) = .ok (.uhashU32 16) ∧
    decode (fieldsWord 33 0 1 2 0x5) = .ok (.uhashS32 33) ∧
    decode (fieldsWord 0 0 0 3 0x5) = .ok (.uhashU64 0) ∧
    decode (fieldsWord 63 0 1 3 0x5) = .ok (.uhashS64 63) := by decide

theorem test_decode_swap :
    decode (fieldsWord 0 0 0 1 0x6) = .ok .swapU16 ∧
    decode (fieldsWord 0 0 1 1 0x6) = .ok .swapS16 ∧
    decode (fieldsWord 0 0 0 2 0x6) = .ok .swapU32 ∧
    decode (fieldsWord 0 0 1 2 0x6) = .ok .swapS32 ∧
    decode (fieldsWord 0 0 0 3 0x6) = .ok .swapU64 ∧
    decode (fieldsWord 0 0 1 3 0x6) = .ok .swapS64 := by decide

theorem test_decode_write :
    decode (fieldsWord 0 0 0 0 0x8) = .ok .writeU8 ∧
    decode (fieldsWord 0 0 1 0 0x8) = .ok .writeS8 ∧
    decode (fieldsWord 0 0 0 1 0x8) = .ok .writeU16 ∧
    decode (fieldsWord 0 0 1 1 0x8) = .ok .writeS16 ∧
    decode (fieldsWord 0 0 0 2 0x8) = .ok .writeU32 ∧
    decode (fieldsWord 0 0 1 2 0x8) = .ok .writeS32 ∧
    decode (fieldsWord 0 0 0 3 0x8) = .ok .writeU64 ∧
    decode (fieldsWord 0 0 1 3 0x8) = .ok .writeS64 ∧
    decode (fieldsWord 0 1 0 2 0x8) = .ok .writeF32 ∧
    decode (fieldsWord 0 1 0 3 0x8) = .ok .writeF64 := by decide

theorem test_decode_read :
    decode (fieldsWord 0 0 0 0 0x9) = .ok .readU8 ∧
    decode (fieldsWord 0 0 1 0 0x9) = .ok .readS8 ∧
    decode (fieldsWord 0 0 0 1 0x9) = .ok .readU16 ∧
    decode (fieldsWord 0 0 1 1 0x9) = .ok .readS16 ∧
    decode (fieldsWord 0 0 0 2 0x9) = .ok .readU32 ∧
    decode (fieldsWord 0 0 1 2 0x9) = .ok .readS32 ∧
    decode (fieldsWord 0 0 0 3 0x9) = .ok .readU64 ∧
    decode (fieldsWord 0 0 1 3 0x9) = .ok .readS64 ∧
    decode (fieldsWord 0 1 0 2 0x9) = .ok .readF32 ∧
    decode (fieldsWord 0 1 0 3 0x9) = .ok .readF64 := by decide

/-- 95 section 2.10. -/
theorem test_decode_illegal :
    decode 0x00000000 = .error .reservedOp ∧ decode 0x0000000F = .error .reservedOp ∧
    decode 0x00000013 = .error .widthUnsupported ∧ decode 0x00000015 = .error .widthUnsupported ∧
    decode 0x00000006 = .error .widthUnsupported ∧ decode 0x00000063 = .error .signedLog2 ∧
    decode 0x00000088 = .error .floatVariant ∧ decode 0x000000C8 = .error .floatVariant ∧
    decode 0x00000121 = .error .countNotZero ∧ decode 0x0000FF25 = .error .reservedBits ∧
    decode 0x80000001 = .error .reservedBits := by decide

theorem test_decode_table_word : decodeTableWord 32 0x1025 = some (.uhashU32 16) ∧ decodeTableWord 32 0x13 = none := by
  decide

/-! ### One step of each command, from the host's write of its word (95 sections 1 and 2) -/

theorem test_foldU8 : resultOf 0x1 (operands 0xFFFFFFFFFFFFFF00 0 0) = some (0, 0x0, 0x0) := by decide

theorem test_foldS8 : resultOf 0x41 (operands 0x80 0 0) = some (0xFFFFFFFFFFFFFFFF, 0x0, 0x0) := by decide

theorem test_foldU16 : resultOf 0x11 (operands 0x5A5A 0 0) = some (0x7FFF, 0x0, 0x0) := by decide

theorem test_foldS16 : resultOf 0x51 (operands 0x8000 0 0) = some (0xFFFFFFFFFFFFFFFF, 0x0, 0x0) := by decide

theorem test_foldU32 : resultOf 0x21 (operands 0x123456789 0 0) = some (0x3FFFFFFF, 0x0, 0x0) := by decide

theorem test_foldS32 : resultOf 0x61 (operands 0x80000000 0 0) = some (0xFFFFFFFFFFFFFFFF, 0x0, 0x0) := by decide

theorem test_foldU64 : resultOf 0x31 (operands 0x5A5A5A5A5A5A5A5A 0 0) = some (0x7FFFFFFFFFFFFFFF, 0x0, 0x0) := by decide

theorem test_foldS64 : resultOf 0x71 (operands 0x8000000000000000 0 0) = some (0xFFFFFFFFFFFFFFFF, 0x0, 0x0) := by decide

theorem test_highbitU8 : resultOf 0x2 (operands 0x81 0 0) = some (0x80, 0x0, 0x0) := by decide

theorem test_highbitS8 : resultOf 0x42 (operands 0x80 0 0) = some (0xFFFFFFFFFFFFFF80, 0x0, 0x0) := by decide

theorem test_highbitU16 : resultOf 0x12 (operands 0x0F0F 0 0) = some (0x800, 0x0, 0x0) := by decide

theorem test_highbitS16 : resultOf 0x52 (operands 0x8001 0 0) = some (0xFFFFFFFFFFFF8000, 0x0, 0x0) := by decide

theorem test_highbitU32 : resultOf 0x22 (operands 0x2001 0 0) = some (0x2000, 0x0, 0x0) := by decide

theorem test_highbitS32 : resultOf 0x62 (operands 0x80000001 0 0) = some (0xFFFFFFFF80000000, 0x0, 0x0) := by decide

theorem test_highbitU64 : resultOf 0x32 (operands 0x0F0F0F0F0F0F0F0F 0 0) = some (0x0800000000000000, 0x0, 0x0) := by decide

theorem test_highbitS64 : resultOf 0x72 (operands 0x8000000000000001 0 0) = some (0x8000000000000000, 0x0, 0x0) := by decide

theorem test_log2U32 : resultOf 0x23 (operands 0x12345 0 0) = some (16, 0x0, 0x0) := by decide

theorem test_log2U32_of_ignored_bits : resultOf 0x23 (operands 0xFFFFFFFF00000000 0 0) = some (0, 0x0, 0x0) := by decide

theorem test_popcntU32 : resultOf 0x24 (operands 0x12345678 0 0) = some (13, 0x0, 0x0) := by decide

theorem test_popcntS32 : resultOf 0x64 (operands 0xFFFFFFFF 0 0) = some (32, 0x0, 0x0) := by decide

theorem test_uhashU32 : resultOf 0x1025 (operands 0x2001 0x9E3779B1 0x12345) = some (0x8D6E, 0x0, 0x0) := by decide

theorem test_uhashU32_range : resultOf 0x2125 (operands 5 1 0) = some (0, 0x21, 0x2125) := by decide

theorem test_uhashS32 : resultOf 0x2065 (operands 0x2001 0x9E3779B1 0x12345) = some (0x8D6EBCF6, 0x0, 0x0) := by decide

theorem test_uhashS32_of_no_bits : resultOf 0x65 (operands 0x2001 0x9E3779B1 0x12345) = some (0, 0x0, 0x0) := by decide

theorem test_uhashU64 : resultOf 0x1035 (operands 0x2001 0x9E3779B97F4A7C15 0x0123456789ABCDEF) = some (0xDEF9, 0x0, 0x0) := by decide

theorem test_uhashU64_halves : resultOf 0x2035 (operands 1 0 0x1FFFFFFFE) = some (0xFFFFFFFF, 0x0, 0x0) := by decide

theorem test_uhashS64 : resultOf 0x2075 (operands 0x2001 0x9E3779B97F4A7C15 0x0123456789ABCDEF) = some (0xDEF9EF0E, 0x0, 0x0) := by decide

theorem test_uhashS64_range : resultOf 0x3F75 (operands 5 1 0) = some (0, 0x21, 0x3F75) := by decide

theorem test_swapU16 : resultOf 0x16 (operands 0xFFFFFFFFFFFF1234 0 0) = some (0x3412, 0x0, 0x0) := by decide

theorem test_swapS16 : resultOf 0x56 (operands 0xCDEF 0 0) = some (0xFFFFFFFFFFFFEFCD, 0x0, 0x0) := by decide

theorem test_swapU32 : resultOf 0x26 (operands 0x89ABCDEF 0 0) = some (0xEFCDAB89, 0x0, 0x0) := by decide

theorem test_swapS32 : resultOf 0x66 (operands 0x80 0 0) = some (0xFFFFFFFF80000000, 0x0, 0x0) := by decide

theorem test_swapU64 : resultOf 0x36 (operands 0x0123456789ABCDEF 0 0) = some (0xEFCDAB8967452301, 0x0, 0x0) := by decide

theorem test_swapS64 : resultOf 0x76 (operands 0xFF00FF00FF00FF00 0 0) = some (0x00FF00FF00FF00FF, 0x0, 0x0) := by decide

theorem test_writeU8 :
    storedBy 0x8 (emptyBuffer 14 0xA1A2A3A4A5A6A7A8) = some ([(14, 0xA8)], 0x0) := by decide

theorem test_writeU8_bound :
    storedBy 0x8 (emptyBuffer 15 0xA1A2A3A4A5A6A7A8) = some ([], 0x41) := by decide

theorem test_writeS8 :
    storedBy 0x48 (emptyBuffer 0 0x0123456789ABCDEF) = some ([(0, 0xEF)], 0x0) := by decide

theorem test_writeU16 :
    storedBy 0x18 (emptyBuffer 13 0xA1A2A3A4A5A6A7A8) = some ([(13, 0xA7), (14, 0xA8)], 0x0) := by decide

theorem test_writeU16_bound :
    storedBy 0x18 (emptyBuffer 14 0xA1A2A3A4A5A6A7A8) = some ([], 0x41) := by decide

theorem test_writeS16 :
    storedBy 0x58 (emptyBuffer 0 0x0123456789ABCDEF) = some ([(0, 0xCD), (1, 0xEF)], 0x0) := by decide

theorem test_writeU32 :
    storedBy 0x28 (emptyBuffer 11 0xA1A2A3A4A5A6A7A8) = some ([(11, 0xA5), (12, 0xA6), (13, 0xA7), (14, 0xA8)], 0x0) := by decide

theorem test_writeU32_negative_start :
    storedBy 0x28 (emptyBuffer 0xFFFFFFFF 0x11223344) = some ([], 0x41) := by decide

theorem test_writeS32 :
    storedBy 0x68 (emptyBuffer 0 0x0123456789ABCDEF) = some ([(0, 0x89), (1, 0xAB), (2, 0xCD), (3, 0xEF)], 0x0) := by decide

theorem test_writeU64 :
    storedBy 0x38 (emptyBuffer 7 0xA1A2A3A4A5A6A7A8) = some ([(7, 0xA1), (8, 0xA2), (9, 0xA3), (10, 0xA4), (11, 0xA5), (12, 0xA6), (13, 0xA7), (14, 0xA8)], 0x0) := by decide

theorem test_writeU64_bound :
    storedBy 0x38 (emptyBuffer 8 0xA1A2A3A4A5A6A7A8) = some ([], 0x41) := by decide

theorem test_writeS64 :
    storedBy 0x78 (emptyBuffer 0 0x0123456789ABCDEF) = some ([(0, 0x01), (1, 0x23), (2, 0x45), (3, 0x67), (4, 0x89), (5, 0xAB), (6, 0xCD), (7, 0xEF)], 0x0) := by decide

theorem test_writeF32 :
    storedBy 0xA8 (emptyBuffer 1 0x7FC00001) = some ([(1, 0x7F), (2, 0xC0), (4, 0x01)], 0x0) := by decide

theorem test_writeF64 :
    storedBy 0xB8 (emptyBuffer 1 0x7FF8000000000001) = some ([(1, 0x7F), (2, 0xF8), (8, 0x01)], 0x0) := by decide

theorem test_readU8 : resultOf 0x9 (fullBuffer 14) = some (0x6E, 0x0, 0) := by decide

theorem test_readU8_bound : resultOf 0x9 (fullBuffer 15) = some (0, 0x41, 0x9) := by decide

theorem test_readS8 : resultOf 0x49 (fullBuffer 0) = some (0xFFFFFFFFFFFFFF80, 0x0, 0) := by decide

theorem test_readU16 : resultOf 0x19 (fullBuffer 13) = some (0x5D6E, 0x0, 0) := by decide

theorem test_readU16_bound : resultOf 0x19 (fullBuffer 14) = some (0, 0x41, 0x19) := by decide

theorem test_readS16 : resultOf 0x59 (fullBuffer 0) = some (0xFFFFFFFFFFFF8091, 0x0, 0) := by decide

theorem test_readU32 : resultOf 0x29 (fullBuffer 11) = some (0x3B4C5D6E, 0x0, 0) := by decide

theorem test_readU32_bound : resultOf 0x29 (fullBuffer 12) = some (0, 0x41, 0x29) := by decide

theorem test_readS32 : resultOf 0x69 (fullBuffer 0) = some (0xFFFFFFFF8091A2B3, 0x0, 0) := by decide

theorem test_readU64 : resultOf 0x39 (fullBuffer 7) = some (0xF708192A3B4C5D6E, 0x0, 0) := by decide

theorem test_readU64_bound : resultOf 0x39 (fullBuffer 8) = some (0, 0x41, 0x39) := by decide

theorem test_readS64 : resultOf 0x79 (fullBuffer 0) = some (0x8091A2B3C4D5E6F7, 0x0, 0) := by decide

theorem test_readF32 : resultOf 0xA9 (fullBuffer 0) = some (0x8091A2B3, 0x0, 0) := by decide

theorem test_readF64 : resultOf 0xB9 (fullBuffer 0) = some (0x8091A2B3C4D5E6F7, 0x0, 0) := by decide

/-! ### The host port -/

/-- The fetch word stands as the host's write to CMD, and the step runs it (20_memory.md R67). -/
theorem test_fetch_word_runs : (after 0x24 (operands 7 0 0)).map (fun t => (t.cmd, t.pending, t.txIndex, t.replies)) =
    some (0x24, [], 1, [.done]) := by decide

/-- 95 section 3, P3, line 18: a byte at or beyond BUF_CAP is a bus error, and the last one below it is not. -/
theorem test_buffer_window_edge :
    portTarget Params.default 0x107F 8 = some (.byte 127) ∧ portTarget Params.default 0x1080 8 = none ∧
    portTarget Params.default 0x1000 16 = none := by decide

/-- 20_memory.md R50: offset and width must both match. -/
theorem test_register_access_is_exact :
    portTarget Params.default 0x008 64 = some (.reg .opa) ∧ portTarget Params.default 0x008 32 = none ∧
    portTarget Params.default 0x00C 32 = none ∧ portTarget Params.default 0x038 32 = none := by decide

/-- An aperture that does not begin at 0 (20_memory.md R50, log 8). -/
theorem test_base_address :
    portTarget ⟨16, false, 0x8000⟩ 0x7FF8 64 = none ∧ portTarget ⟨16, false, 0x8000⟩ 0x802C 32 = some (.reg .bufLen) := by
  decide

/-- 60_exceptions.md R205: E_NOBUF comes before E_BOUNDS (95 section 2.9). -/
theorem test_no_buffer_before_bounds :
    resultOf 0x69 { State.reset with bufLen := 0xFFFFFFFF, start := 0xFFFFFFFF } = some (0, 0x31, 0x69) := by decide

/-- 30_encoding.md R82: the spelling of every command assembles to its word; here the two with an operand at its ends. -/
theorem test_assemble_operand : assemble "UHASH.S64 0" = some 0x75 ∧ assemble "UHASH.S64 63" = some 0x3F75 := by decide

/-- 30_encoding.md R83: a negative START is written as its 32-bit pattern. -/
theorem test_expand_put : expandLine Params.default (.put .u8 0xFFFFFFFF 0x1FF) =
    [.write 0x028 32 0xFFFFFFFF#32, .write 0x008 64 0x1FF#64, .write 0 32 0x08#32] := by decide

/-! ### Witnesses: for each statement with hypotheses, a state and operands that meet them -/

theorem test_witness_DecodeOfEncodeIsTheCommand :
    Instr.wellFormed .foldU8 = true ∧ Instr.wellFormed (.uhashS64 63) = true := by decide

theorem test_witness_EncodeOfDecodeIsTheWord : decode 0x00003F75 = .ok (.uhashS64 63) := by decide

theorem test_witness_ExactlyOneRowMatches :
    (∃ r ∈ opcodeRows, 0x00003F75 &&& r.mask = r.pattern) ∧ ∀ r ∈ opcodeRows, 0x00000006 &&& r.mask ≠ r.pattern := by
  decide

theorem test_witness_CommandWriteExecutesTheWord :
    ((faultedFacing [.write 0 32 0x21#32]).pending = [.write (Params.default.bmuBase) 32 0x21#32] ∧
      faultBit (faultedFacing [.write 0 32 0x21#32]) = true) ∧
    ((facing [.write 0 32 0x21#32]).pending = [.write (Params.default.bmuBase) 32 0x21#32] ∧
      faultBit (facing [.write 0 32 0x21#32]) = false ∧ decode 0x21 = .ok .foldU32) ∧
    ((facing [.write 0 32 0x06#32]).pending = [.write (Params.default.bmuBase) 32 0x06#32] ∧
      decode 0x06 = .error .widthUnsupported) := by decide

theorem test_witness_IllegalWordsRaiseIllegal :
    faultBit (facing [.write 0 32 0x06#32]) = false ∧ (facing [.write 0 32 0x06#32]).pending = [.write 0 32 0x06#32] ∧
    (after 0x06 State.reset).map (fun t => (t.status, t.faultCmd)) = some (0x11, 0x06) := by decide

/-- A UHASH of 32 and of 33 bits, and buffer lengths of BUF_CAP and one more. -/
theorem test_witness_FaultCausesAndEntry :
    faultBit (facing [.write 0 32 0x2125#32]) = false ∧
    (facing [.write 0 32 0x2125#32]).pending = [.write 0 32 0x2125#32] ∧
    resultOf 0x2025 State.reset = some (0, 0, 0) ∧ resultOf 0x2125 State.reset = some (0, 0x21, 0x2125) ∧
    resultOf 0x09 { State.reset with bufLen := 128 } = some (0, 0, 0) ∧
    resultOf 0x09 { State.reset with bufLen := 129 } = some (0, 0x31, 0x09) := by decide

theorem test_witness_FaultedUnitIgnoresCommands :
    faultBit (faultedFacing []) = true ∧
    (∀ r, (faultedFacing [.read (regOffset r) (regWidth r)]).pending =
      [.read ((faultedFacing []).params.bmuBase + regOffset r) (regWidth r)]) ∧
    (faultedFacing [.write 0x008 64 1#64]).pending = [.write ((faultedFacing []).params.bmuBase + 0x008) 64 1#64] ∧
    (faultedFacing [.write 0x010 64 1#64]).pending = [.write ((faultedFacing []).params.bmuBase + 0x010) 64 1#64] ∧
    (faultedFacing [.write 0x018 64 1#64]).pending = [.write ((faultedFacing []).params.bmuBase + 0x018) 64 1#64] ∧
    (faultedFacing [.write 0x028 32 1#32]).pending = [.write ((faultedFacing []).params.bmuBase + 0x028) 32 1#32] ∧
    (faultedFacing [.write 0x02C 32 1#32]).pending = [.write ((faultedFacing []).params.bmuBase + 0x02C) 32 1#32] ∧
    127 < (faultedFacing []).params.bufCap ∧
    (faultedFacing [.read 0x107F 8]).pending = [.read ((faultedFacing []).params.bmuBase + 0x1000 + 127) 8] ∧
    (faultedFacing [.write 0x107F 8 9#8]).pending = [.write ((faultedFacing []).params.bmuBase + 0x1000 + 127) 8 9#8] ∧
    Memory.wf (faultedFacing []).buf = true := by
  refine ⟨by decide, fun r => ?_, by decide, by decide, by decide, by decide, by decide, by decide, by decide, by decide,
    by decide⟩
  cases r <;> decide

theorem test_witness_RegistersReadAsThemselves :
    (facing [.read 0x000 32]).pending = [.read (State.reset.params.bmuBase + 0x000) 32] ∧
    (facing [.read 0x004 32]).pending = [.read (State.reset.params.bmuBase + 0x004) 32] ∧
    (facing [.read 0x008 64]).pending = [.read (State.reset.params.bmuBase + 0x008) 64] ∧
    (facing [.read 0x010 64]).pending = [.read (State.reset.params.bmuBase + 0x010) 64] ∧
    (facing [.read 0x018 64]).pending = [.read (State.reset.params.bmuBase + 0x018) 64] ∧
    (facing [.read 0x020 64]).pending = [.read (State.reset.params.bmuBase + 0x020) 64] ∧
    (facing [.read 0x028 32]).pending = [.read (State.reset.params.bmuBase + 0x028) 32] ∧
    (facing [.read 0x02C 32]).pending = [.read (State.reset.params.bmuBase + 0x02C) 32] ∧
    (facing [.read 0x030 32]).pending = [.read (State.reset.params.bmuBase + 0x030) 32] ∧
    (facing [.read 0x034 32]).pending = [.read (State.reset.params.bmuBase + 0x034) 32] := by decide

theorem test_witness_RegisterWritesTakeEffect :
    (facing [.write 0x008 64 5#64]).pending = [.write (State.reset.params.bmuBase + 0x008) 64 5#64] ∧
    (facing [.write 0x010 64 5#64]).pending = [.write (State.reset.params.bmuBase + 0x010) 64 5#64] ∧
    (facing [.write 0x018 64 5#64]).pending = [.write (State.reset.params.bmuBase + 0x018) 64 5#64] ∧
    (facing [.write 0x028 32 5#32]).pending = [.write (State.reset.params.bmuBase + 0x028) 32 5#32] ∧
    (facing [.write 0x02C 32 5#32]).pending = [.write (State.reset.params.bmuBase + 0x02C) 32 5#32] ∧
    (facing [.write 0x004 32 5#32]).pending = [.write (State.reset.params.bmuBase + 0x004) 32 5#32] ∧
    (facing [.write 0x020 64 5#64]).pending = [.write (State.reset.params.bmuBase + 0x020) 64 5#64] ∧
    (facing [.write 0x030 32 5#32]).pending = [.write (State.reset.params.bmuBase + 0x030) 32 5#32] ∧
    (facing [.write 0x034 32 5#32]).pending = [.write (State.reset.params.bmuBase + 0x034) 32 5#32] := by decide

/-- The last byte below BUF_CAP, the first one at it, and a width that is not 8. -/
theorem test_witness_BufferWindowTransactions :
    (127 < State.reset.params.bufCap ∧
      (facing [.read 0x107F 8]).pending = [.read (State.reset.params.bmuBase + 0x1000 + 127) 8]) ∧
    (facing [.write 0x107F 8 9#8]).pending = [.write (State.reset.params.bmuBase + 0x1000 + 127) 8 9#8] ∧
    (State.reset.params.bufCap ≤ 128 ∧
      (facing [.read 0x1080 8]).pending = [.read (State.reset.params.bmuBase + 0x1000 + 128) 8]) ∧
    ((16 : Nat) ≠ 8 ∧ (facing [.write 0x107F 16 9#16]).pending =
      [.write (State.reset.params.bmuBase + 0x1000 + 127) 16 9#16]) ∧ Memory.wf State.reset.buf = true := by decide

/-- An offset inside a register, and the first byte beyond the buffer. -/
theorem test_witness_BusErrorsChangeNothing :
    ((∀ r, ¬(0x00C = State.reset.params.bmuBase + regOffset r ∧ 32 = regWidth r)) ∧
      (∀ a < State.reset.params.bufCap, ¬(0x00C = State.reset.params.bmuBase + 0x1000 + a ∧ 32 = 8)) ∧
      (facing [.read 0x00C 32]).pending = [.read 0x00C 32]) ∧
    ((∀ r, ¬(0x1080 = State.reset.params.bmuBase + regOffset r ∧ 8 = regWidth r)) ∧
      (∀ a < State.reset.params.bufCap, ¬(0x1080 = State.reset.params.bmuBase + 0x1000 + a ∧ 8 = 8)) ∧
      (facing [.write 0x1080 8 1#8]).pending = [.write 0x1080 8 1#8]) := by
  refine ⟨⟨fun r => ?_, by decide, by decide⟩, ⟨fun r => ?_, by decide, by decide⟩⟩
  · cases r <;> decide
  · cases r <;> decide

theorem test_witness_HardwareResetSetsEveryRegister : (faultedFacing [.reset]).pending = [.reset] := by decide

/-- The word of WRITE.U8 (95 section 2.9, first row), and a run that reads BUFLEN but does not write it. -/
theorem test_witness_PowerOnStateAcceptsNoAccess :
    (facing [.write 0 32 0x08#32]).bufLen = 0 ∧ faultBit (facing [.write 0 32 0x08#32]) = false ∧
    accessBytes .writeU8 = some 1 ∧
    (facing [.write 0 32 0x08#32]).pending = [.write State.reset.params.bmuBase 32 (encode .writeU8)] ∧
    resultOf 0x08 State.reset = some (0, 0x41, 0x08) := by decide

/-- Writes to START and of another width at BUFLEN's offset are no writes to BUFLEN. -/
theorem test_witness_PowerOnStateAcceptsNoAccess_run :
    (facing [.write 0x028 32 5#32, .write 0x02C 64 5#64, .reset]).bufLen = 0 ∧
    ∀ v : Word32, .write (State.reset.params.bmuBase + 0x02C) 32 v ∉
      (facing [.write 0x028 32 5#32, .write 0x02C 64 5#64, .reset]).pending := by
  refine ⟨by decide, fun v => ?_⟩
  simp [facing, State.reset, State.launch, Params.default]

theorem test_witness_IdleStepChangesNothing : State.reset.pending = [] := by decide

theorem test_witness_ResetMeetsTheInvariant :
    Params.legal ⟨1, false, 8⟩ = true ∧ Memory.wf [(0, 0xFF)] = true ∧
    ([(0, 0xFF)] : Memory).all (fun c => decide (c.1 < 1)) = true := by decide

theorem test_witness_StepKeepsTheInvariant :
    invariant (fullBuffer 0) = true ∧ invariant (faultedFacing [.write 0x107F 8 9#8]) = true := by decide

/-- The bit counts where the clauses meet. -/
theorem test_witness_HashCommands :
    ((0 : Nat) < 64 ∧ (63 : Nat) < 64) ∧ ((0 : Nat) ≤ 32 ∧ (32 : Nat) ≤ 32) ∧ (32 : Nat) < 33 ∧ (33 : Nat) < 64 ∧
    (32 : Nat) < 63 := by decide

theorem test_witness_HashFitsInItsBitCount :
    (0 : Nat) ≤ 32 ∧ Instr.uhashS64 0 ∈ [Instr.uhashU32 0, Instr.uhashS32 0, Instr.uhashU64 0, Instr.uhashS64 0] := by
  decide

theorem test_witness_BitOpsReadOnlyTheirOperands :
    accessBytes .swapU16 = none ∧ bitCount .swapU16 = none ∧ accessBytes (.uhashU32 33) = none := by decide

/-- BUFLEN at BUF_CAP and above it, and START at the last legal offset and the next one, for each number of bytes. -/
theorem test_witness_WriteCommands :
    (∀ b ∈ [1, 2, 4, 8], accessAllowed b (emptyBuffer (BitVec.ofNat 32 (15 - b)) 0)) ∧
    (∀ b ∈ [1, 2, 4, 8], accessOutOfBounds b (emptyBuffer (BitVec.ofNat 32 (16 - b)) 0)) ∧
    (∀ b ∈ [1, 2, 4, 8], accessOutOfBounds b (emptyBuffer 0xFFFFFFFF 0)) ∧
    (∀ b ∈ [1, 2, 4, 8], accessAllowed b { State.reset with bufLen := 128, start := BitVec.ofNat 32 (127 - b) }) ∧
    ({ State.reset with bufLen := 129 } : State).params.bufCap < (129#32).toNat ∧
    Memory.wf (emptyBuffer 0 0).buf = true := by
  unfold accessAllowed accessOutOfBounds
  decide

theorem test_witness_ReadCommands :
    (∀ b ∈ [1, 2, 4, 8], accessAllowed b (fullBuffer (BitVec.ofNat 32 (15 - b)))) ∧
    (∀ b ∈ [1, 2, 4, 8], accessOutOfBounds b (fullBuffer (BitVec.ofNat 32 (16 - b)))) ∧
    (∀ b ∈ [1, 2, 4, 8], accessOutOfBounds b (fullBuffer 0x80000000)) ∧
    ({ State.reset with bufLen := 129 } : State).params.bufCap < (129#32).toNat := by
  unfold accessAllowed accessOutOfBounds
  decide

theorem test_witness_WriteThenReadReturnsTheValue :
    Memory.wf (fullBuffer 7).buf = true ∧ ∀ b ∈ [1, 2, 4, 8], accessAllowed b (fullBuffer 7) := by
  unfold accessAllowed
  decide

/-- The wide write at 11, the last legal offset, then narrower reads at 11, 12, 13 and 14. -/
theorem test_witness_NarrowReadsSeeTheBytesOfAWideWrite :
    Memory.wf (fullBuffer 11).buf = true ∧ accessAllowed 4 (fullBuffer 11) ∧
    (∀ j ≤ 2, (fullBuffer (BitVec.ofNat 32 (11 + j))).start.toInt = (fullBuffer 11).start.toInt + j ∧
      accessAllowed 2 (fullBuffer (BitVec.ofNat 32 (11 + j)))) ∧
    (∀ j ≤ 3, (fullBuffer (BitVec.ofNat 32 (11 + j))).start.toInt = (fullBuffer 11).start.toInt + j ∧
      accessAllowed 1 (fullBuffer (BitVec.ofNat 32 (11 + j)))) := by
  unfold accessAllowed
  decide

/-- Two buffers that differ at 16, the first byte beyond BUFLEN. -/
theorem test_witness_UnitStaysInsideTheCallersBuffer :
    Memory.wf (emptyBuffer 7 1).buf = true ∧ Memory.wf [(16, 0x55)] = true ∧
    (∀ a < (emptyBuffer 7 1).bufLen.toNat, Memory.read [(16, 0x55)] a = Memory.read (emptyBuffer 7 1).buf a) ∧
    (emptyBuffer 7 1).bufLen.toNat ≤ 16 := by decide

/-- A command that faults, and one that does not. -/
theorem test_witness_CommandsNeverWriteOperands :
    (facing [.write 0 32 0x06#32]).pending = [.write State.reset.params.bmuBase 32 0x06#32] ∧
    faultBit (facing [.write 0 32 0x06#32]) = false ∧ (after 0x06 State.reset).map faultBit = some true ∧
    (after 0x21 State.reset).map faultBit = some false := by decide

theorem test_witness_IndexAdvancesByOne :
    (facing [.reset]).pending = [.reset] ∧ (facing [.read 0x038 32]).pending = [.read 0x038 32] ∧
    (.read 0x038 32 : HostEvent) ≠ .reset := by decide

theorem test_witness_FaultLatchHoldsUntilReset :
    faultBit (faultedFacing [.write 0x004 32 0#32, .write 0 32 0x21#32]) = true ∧
    (.reset : HostEvent) ∉ (faultedFacing [.write 0x004 32 0#32, .write 0 32 0x21#32]).pending ∧
    (faultedFacing [.reset]).pending = [.reset] := by decide

theorem test_witness_StatusChangesOnlyByFaultOrReset :
    (after 0x06 State.reset).map (fun t => decide (t.status ≠ State.reset.status)) = some true := by decide

theorem test_witness_ResultChangesOnlyByACompletedCommand :
    (after 0x24 (operands 7 0 0)).map (fun t => decide (t.result ≠ (operands 7 0 0).result)) = some true := by decide

theorem test_witness_CapAlwaysReadsTheCapacity :
    (facing [.read 0x034 32]).pending = [.read (State.reset.params.bmuBase + 0x034) 32] ∧
    (facing [.write 0x034 32 5#32]).pending = [.write (State.reset.params.bmuBase + 0x034) 32 5#32] := by decide

theorem test_witness_ReadsHaveNoSideEffect :
    (facing [.read 0x034 32]).pending = [.read 0x034 32] ∧ Memory.wf (facing []).buf = true ∧
    ¬((0x1000 : Nat) = State.reset.params.bmuBase ∧ (8 : Nat) = 32) ∧
    (facing [.write 0x1000 8 9#8, .write 0x1000 8 9#8]).pending = [.write 0x1000 8 9#8, .write 0x1000 8 9#8] := by decide

theorem test_witness_AssemblerTakesExactlyTheSpellings :
    assemble "UHASH.S64 63" = some 0x3F75 ∧ Instr.wellFormed (.uhashS64 63) = true ∧
    spelling (.uhashS64 63) = "UHASH.S64 63" ∧ encode (.uhashS64 63) = 0x3F75 := by decide

/-- A read that is refused, a write that is refused (95 section 3, P3, line 18), and a reset. -/
theorem test_witness_OutcomeHoldsOneEntryForEachRead :
    (facing [.read 0x00C 32]).pending = [.read 0x00C 32] ∧
    (facing [.write 0x10C8 8 1#8]).pending = [.write 0x10C8 8 1#8] ∧ (facing [.reset]).pending = [.reset] := by decide

/-- 70_reset_and_hazards.md R241 item 1: a refused read has an entry, a refused write has none. -/
theorem test_outcome_of_bus_errors :
    outcomeReadsOf [.read 0x10C8 8] = some [.busError] ∧ outcomeReadsOf [.write 0x10C8 8 1#8] = some [] := by decide

end Sys2Proof.Tests
end

section
/-! The register block as the port reaches it (10_state.md R21, 20_memory.md R50): which transaction reaches a register,
and what the step on such a transaction is. -/

namespace Sys2Proof.Machine

/-- Both the offset and the width of a transaction that reaches a register are the register's own. -/
theorem regAt_eq_some_iff {offset width : Nat} {r : Reg} :
    regAt offset width = some r ↔ offset = regOffset r ∧ width = regWidth r := by
  constructor
  · intro h
    have hr := List.find?_some h
    simp only [Bool.and_eq_true, decide_eq_true_eq] at hr
    exact ⟨hr.1.symm, hr.2.symm⟩
  · rintro ⟨rfl, rfl⟩
    cases r <;> rfl

theorem regOffset_lt_bufWindow (r : Reg) : regOffset r < bufWindow := by
  cases r <;> decide

theorem portTarget_eq_reg_iff {p : Params} {addr width : Nat} {r : Reg} :
    portTarget p addr width = some (.reg r) ↔ addr = p.bmuBase + regOffset r ∧ width = regWidth r := by
  have hr := regOffset_lt_bufWindow r
  unfold portTarget
  split
  · simp; omega
  split
  · simp only [Option.map_eq_some_iff, PortTarget.reg.injEq, exists_eq_right, regAt_eq_some_iff]
    omega
  split
  · simp; omega
  · simp; omega

theorem portTarget_reg (p : Params) (r : Reg) : portTarget p (p.bmuBase + regOffset r) (regWidth r) = some (.reg r) :=
  portTarget_eq_reg_iff.2 ⟨rfl, rfl⟩

/-- The line is taken and a reply is logged: the state that the statements name `afterReply`. -/
theorem logReply_advance (r : Reply) (rest : List HostEvent) (s : State) :
    logReply r (advance rest s) = afterReply r rest s := rfl

/-- Taking the line touches no register. -/
theorem readReg_advance (r : Reg) (rest : List HostEvent) (s : State) : readReg r (advance rest s) = readReg r s := by
  cases r <;> rfl

theorem step_read_reg (r : Reg) {s : State} {rest : List HostEvent}
    (h : s.pending = .read (s.params.bmuBase + regOffset r) (regWidth r) :: rest) :
    step s = .next (afterReply (readReg r s) rest s) := by
  rw [step_cons h, hostEvent, hostRead, advance_params, portTarget_reg]
  simp only [readReg_advance, logReply_advance]

theorem step_write_of_portTarget {r : Reg} {s : State} {addr width : Nat} {d : BitVec width} {rest : List HostEvent}
    (ht : portTarget s.params addr width = some (.reg r)) (h : s.pending = .write addr width d :: rest) :
    step s = regWrite r (d.setWidth 64) (afterReply .done rest s) := by
  rw [step_cons h, hostEvent, hostWrite, advance_params, ht]
  rfl

theorem step_write_reg64 (r : Reg) (hr : regWidth r = 64) {s : State} {v : Word64} {rest : List HostEvent}
    (h : s.pending = .write (s.params.bmuBase + regOffset r) 64 v :: rest) :
    step s = regWrite r v (afterReply .done rest s) := by
  rw [step_write_of_portTarget (portTarget_eq_reg_iff.2 ⟨rfl, hr.symm⟩) h, BitVec.setWidth_eq]

theorem step_write_reg32 (r : Reg) (hr : regWidth r = 32) {s : State} {u : Word32} {rest : List HostEvent}
    (h : s.pending = .write (s.params.bmuBase + regOffset r) 32 u :: rest) :
    step s = regWrite r (u.setWidth 64) (afterReply .done rest s) :=
  step_write_of_portTarget (portTarget_eq_reg_iff.2 ⟨rfl, hr.symm⟩) h

/-- A 32-bit register takes the whole of the word that was written. -/
theorem setWidth_setWidth_word (u : Word32) : (u.setWidth 64).setWidth 32 = u := by
  simp

theorem step_write_cmd {s : State} {w : Word32} {rest : List HostEvent}
    (h : s.pending = .write s.params.bmuBase 32 w :: rest) :
    step s = commandWrite w (afterReply .done rest s) := by
  rw [step_write_reg32 .cmd rfl h, regWrite, setWidth_setWidth_word]

end Sys2Proof.Machine
end

section
/-! What a command word, a line of the host's list and a run leave unchanged. -/

namespace Sys2Proof.Machine

@[simp] theorem faultBit_setResult (v : Word64) (s : State) : faultBit (setResult v s) = faultBit s := rfl

@[simp] theorem faultBit_setBuf (m : Memory) (s : State) : faultBit (setBuf m s) = faultBit s := rfl

@[simp] theorem faultBit_latchCommand (w : Word32) (s : State) : faultBit (latchCommand w s) = faultBit s := rfl

theorem exec_commandEffect {i : Instr} {s t : State} (h : exec i s = .next t) : CommandEffect s t := by
  obtain ⟨t', ht', he⟩ := exec_effect i s
  rw [h] at ht'
  cases ht'
  exact he

/-- Everything a write of the word `w` to CMD can do: it is ignored, or the word is latched and faults, writes RESULT or
stores to the checked span (30_encoding.md R80, 60_exceptions.md R208). -/
inductive CommandWriteEffect (w : Word32) (s : State) : State → Prop where
  /-- The fault latch is set. -/
  | ignored (hf : faultBit s = true) : CommandWriteEffect w s s
  /-- The word does not decode, or its command fails a check. -/
  | faulted (hf : faultBit s = false) (c : FaultCode) : CommandWriteEffect w s (raiseFault c (latchCommand w s))
  /-- A command completes and writes RESULT. -/
  | result (hf : faultBit s = false) (v : Word64) : CommandWriteEffect w s (setResult v (latchCommand w s))
  /-- A WRITE completes. -/
  | stored (hf : faultBit s = false) (m : Memory) : CommandWriteEffect w s (setBuf m (latchCommand w s))

theorem commandWrite_effect (w : Word32) (s : State) :
    ∃ t, commandWrite w s = .next t ∧ CommandWriteEffect w s t := by
  rcases commandWrite_cases w s with ⟨hf, h⟩ | ⟨hf, i, _, h⟩ | ⟨hf, _, _, h⟩
  · exact ⟨s, h, .ignored hf⟩
  · obtain ⟨t, ht, he⟩ := exec_effect i (latchCommand w s)
    refine ⟨t, h.trans ht, ?_⟩
    cases he with
    | result v => exact .result hf v
    | stored b v _ => exact .stored hf _
    | faulted c _ => exact .faulted hf c
  · exact ⟨_, h, .faulted hf .illegal⟩

theorem commandWriteEffect_of_next {w : Word32} {s t : State} (h : commandWrite w s = .next t) :
    CommandWriteEffect w s t := by
  obtain ⟨t', ht', he⟩ := commandWrite_effect w s
  rw [h] at ht'
  cases ht'
  exact he

/-- The registers that a command only reads, and the parameters (10_state.md R29 to R34,
70_reset_and_hazards.md R234). -/
structure OperandsKept (s t : State) : Prop where
  opa : t.opa = s.opa
  opb : t.opb = s.opb
  opc : t.opc = s.opc
  start : t.start = s.start
  bufLen : t.bufLen = s.bufLen
  params : t.params = s.params

theorem CommandWriteEffect.operandsKept {w : Word32} {s t : State} (h : CommandWriteEffect w s t) :
    OperandsKept s t := by
  cases h <;> exact ⟨rfl, rfl, rfl, rfl, rfl, rfl⟩

theorem CommandWriteEffect.cmd_eq {w : Word32} {s t : State} (h : CommandWriteEffect w s t) :
    t.cmd = if faultBit s then s.cmd else w := by
  cases h with
  | ignored hf => simp [hf]
  | faulted hf c => simp [hf]
  | result hf v => simp [hf]
  | stored hf m => simp [hf]

/-- Faults are precise (60_exceptions.md R207). -/
theorem CommandWriteEffect.result_buf_of_fault {w : Word32} {s t : State} (h : CommandWriteEffect w s t)
    (hs : faultBit s = false) (ht : faultBit t = true) : t.result = s.result ∧ t.buf = s.buf := by
  cases h with
  | ignored hf => simp [hs] at hf
  | faulted _ c => simp
  | result hf v => simp [hf] at ht
  | stored hf m => simp [hf] at ht

/-- STATUS and FAULTCMD stay, or a fault is raised with the written word in FAULTCMD (60_exceptions.md R206). -/
theorem CommandWriteEffect.latch_cases {w : Word32} {s t : State} (h : CommandWriteEffect w s t) :
    (t.status = s.status ∧ t.faultCmd = s.faultCmd) ∨ (faultBit s = false ∧ faultBit t = true ∧ t.faultCmd = w) := by
  cases h with
  | ignored _ => exact .inl ⟨rfl, rfl⟩
  | faulted hf c => exact .inr ⟨hf, by simp, by simp⟩
  | result _ v => exact .inl ⟨rfl, rfl⟩
  | stored _ m => exact .inl ⟨rfl, rfl⟩

/-- The registers that no host write stores to, and CMD. -/
structure UnitRegistersKept (s t : State) : Prop where
  cmd : t.cmd = s.cmd
  status : t.status = s.status
  result : t.result = s.result
  faultCmd : t.faultCmd = s.faultCmd

/-- Only the reset input and a write to CMD change the registers that the unit writes. -/
theorem hostEvent_cases {e : HostEvent} {s t : State} (h : hostEvent e s = .next t) :
    (e = .reset ∧ t = hardReset s) ∨
    (∃ w, e = .write s.params.bmuBase 32 w ∧ commandWrite w (logReply .done s) = .next t) ∨
    UnitRegistersKept s t := by
  cases e with
  | read addr width =>
    obtain ⟨r, hr, _⟩ := hostRead_reply addr width s
    rw [hostEvent, hr] at h
    cases h
    exact .inr (.inr ⟨rfl, rfl, rfl, rfl⟩)
  | write addr width data =>
    simp only [hostEvent, hostWrite] at h
    split at h
    · next r hp =>
      cases r with
      | cmd =>
        obtain ⟨haddr, hwidth⟩ := portTarget_eq_reg_iff.1 hp
        obtain rfl : addr = s.params.bmuBase := haddr
        obtain rfl : width = 32 := hwidth
        rw [regWrite, setWidth_setWidth_word] at h
        exact .inr (.inl ⟨data, rfl, h⟩)
      | _ => cases h; exact .inr (.inr ⟨rfl, rfl, rfl, rfl⟩)
    · cases h; exact .inr (.inr ⟨rfl, rfl, rfl, rfl⟩)
    · cases h; exact .inr (.inr ⟨rfl, rfl, rfl, rfl⟩)
  | reset =>
    cases h
    exact .inl ⟨rfl, rfl⟩

/-- The part of the state that no effect of a line touches: the rest of the list, the index and the parameters. -/
structure RunFrameKept (s t : State) : Prop where
  pending : t.pending = s.pending
  txIndex : t.txIndex = s.txIndex
  params : t.params = s.params

theorem CommandEffect.runFrameKept {s t : State} (h : CommandEffect s t) : RunFrameKept s t := by
  cases h <;> exact ⟨rfl, rfl, rfl⟩

theorem HostEffect.runFrameKept {s t : State} (h : HostEffect s t) : RunFrameKept s t := by
  cases h with
  | command w i _ _ _ hx =>
    obtain ⟨hp, hi, hq⟩ := (exec_commandEffect hx).runFrameKept
    exact ⟨hp, hi, hq⟩
  | _ => exact ⟨rfl, rfl, rfl⟩

/-- Each transaction adds its one reply, and the reset input none (70_reset_and_hazards.md R241). -/
theorem hostEvent_replies {e : HostEvent} {s t : State} (h : hostEvent e s = .next t) :
    (e = .reset → t.replies = s.replies) ∧ (e ≠ .reset → ∃ r, t.replies = s.replies ++ [r]) := by
  cases e with
  | read addr width =>
    obtain ⟨r, hr, _⟩ := hostRead_reply addr width s
    rw [hostEvent, hr] at h
    cases h
    exact ⟨nofun, fun _ => ⟨r, rfl⟩⟩
  | write addr width data =>
    obtain ⟨r, hr, _⟩ := hostWrite_reply h
    exact ⟨nofun, fun _ => ⟨r, hr⟩⟩
  | reset =>
    cases h
    exact ⟨fun _ => rfl, fun hne => absurd rfl hne⟩

theorem step_params {s t : State} (h : step s = .next t) : t.params = s.params := by
  rcases step_effect h with ⟨_, rfl⟩ | ⟨_, _, _, he⟩
  · rfl
  · exact he.runFrameKept.params

/-- A run of any length answers a next state and keeps the parameters (70_reset_and_hazards.md R234). -/
theorem runSteps_params (k : Nat) (s : State) : ∃ t, runSteps k s = .next t ∧ t.params = s.params := by
  induction k generalizing s with
  | zero => exact ⟨s, rfl, rfl⟩
  | succ k ih =>
    obtain ⟨u, hu, _⟩ := step_answers s
    obtain ⟨t, ht, hp⟩ := ih u
    exact ⟨t, (runSteps_succ k hu).trans ht, hp.trans (step_params hu)⟩

end Sys2Proof.Machine
end

section
/-! The invariant, one lemma for each update of the state. -/

namespace Sys2Proof.Machine

theorem invariant_iff (s : State) :
    invariant s = true ↔ s.params.legal = true ∧ statusLegal s = true ∧ latchConsistent s = true ∧
      Memory.wf s.buf = true ∧ bufferInCapacity s = true := by
  simp only [invariant, Bool.and_eq_true, and_assoc]

@[simp] theorem invariant_advance (rest : List HostEvent) (s : State) : invariant (advance rest s) = invariant s := rfl
@[simp] theorem invariant_logReply (r : Reply) (s : State) : invariant (logReply r s) = invariant s := rfl
@[simp] theorem invariant_setOpa (v : Word64) (s : State) : invariant (setOpa v s) = invariant s := rfl
@[simp] theorem invariant_setOpb (v : Word64) (s : State) : invariant (setOpb v s) = invariant s := rfl
@[simp] theorem invariant_setOpc (v : Word64) (s : State) : invariant (setOpc v s) = invariant s := rfl
@[simp] theorem invariant_setStart (v : Word32) (s : State) : invariant (setStart v s) = invariant s := rfl
@[simp] theorem invariant_setBufLen (v : Word32) (s : State) : invariant (setBufLen v s) = invariant s := rfl
@[simp] theorem invariant_setResult (v : Word64) (s : State) : invariant (setResult v s) = invariant s := rfl

theorem statusLegal_raiseFault (c : FaultCode) (s : State) : statusLegal (raiseFault c s) = true := by
  cases c <;> simp [statusLegal, statusWord, faultNumber]

theorem latchConsistent_raiseFault (c : FaultCode) (s : State) : latchConsistent (raiseFault c s) = true := by
  simp [latchConsistent]

theorem invariant_raiseFault {s : State} (c : FaultCode) (h : invariant s = true) :
    invariant (raiseFault c s) = true := by
  obtain ⟨hp, _, _, hw, hb⟩ := (invariant_iff s).1 h
  exact (invariant_iff _).2 ⟨hp, statusLegal_raiseFault c s, latchConsistent_raiseFault c s, hw, hb⟩

theorem latchConsistent_of_unfaulted {s : State} (hf : faultBit s = false) :
    latchConsistent s = decide (s.faultCmd = 0) := by
  simp [latchConsistent, hf]

/-- A new word in CMD leaves the latch consistent while FAULT is 0: then FAULTCMD is 0 and CMD does not matter. -/
theorem invariant_latchCommand {s : State} (w : Word32) (hf : faultBit s = false) (h : invariant s = true) :
    invariant (latchCommand w s) = true := by
  obtain ⟨hp, hs, hl, hw, hb⟩ := (invariant_iff s).1 h
  have hl' : latchConsistent (latchCommand w s) = true := by
    rw [latchConsistent_of_unfaulted hf] at hl
    exact (latchConsistent_of_unfaulted (s := latchCommand w s) hf).trans hl
  exact (invariant_iff _).2 ⟨hp, hs, hl', hw, hb⟩

theorem invariant_setBuf {s : State} {m : Memory} (hm : Memory.wf m = true)
    (hc : m.all (fun c => decide (c.1 < s.params.bufCap)) = true) (h : invariant s = true) :
    invariant (setBuf m s) = true := by
  obtain ⟨hp, hs, hl, _, _⟩ := (invariant_iff s).1 h
  exact (invariant_iff _).2 ⟨hp, hs, hl, hm, hc⟩

theorem invariant_byteWrite {s : State} {a : Nat} (v : Byte) (ha : a < s.params.bufCap) (h : invariant s = true) :
    invariant (byteWrite a v s) = true := by
  obtain ⟨_, _, _, hw, hb⟩ := (invariant_iff s).1 h
  exact invariant_setBuf (Memory.write_wf hw) (Memory.write_below hb ha) h

/-- The span that the checks let through lies within the capacity (20_memory.md R52, R58, R59). -/
theorem bufStart_add_le_bufCap {b : Nat} {s : State} (hc : checkBuffer b s = none) :
    bufStart s + b ≤ s.params.bufCap := by
  obtain ⟨hlen, hstart, hend⟩ := (checkBuffer_none_iff b s).1 hc
  unfold bufStart startOffset
  omega

theorem invariant_storeBE {n b : Nat} {s : State} (v : BitVec n) (hc : checkBuffer b s = none)
    (h : invariant s = true) :
    invariant (setBuf (storeBE s.buf (bufStart s) v b) s) = true := by
  obtain ⟨_, _, _, hw, hb⟩ := (invariant_iff s).1 h
  exact invariant_setBuf (storeBE_wf hw _ v b) (storeBE_below hb _ v b (bufStart_add_le_bufCap hc)) h

theorem invariant_hardReset {s : State} (h : invariant s = true) : invariant (hardReset s) = true := by
  obtain ⟨hp, _, _, hw, hb⟩ := (invariant_iff s).1 h
  exact (invariant_iff _).2 ⟨hp, by simp [statusLegal], by simp [latchConsistent], hw, hb⟩

theorem CommandEffect.invariant {s t : State} (he : CommandEffect s t) (h : invariant s = true) :
    invariant t = true := by
  cases he with
  | result v => simpa using h
  | stored b v hc => exact invariant_storeBE v hc h
  | faulted c _ => exact invariant_raiseFault c h

theorem HostEffect.invariant {s t : State} (he : HostEffect s t) (h : invariant s = true) : invariant t = true := by
  cases he with
  | replied r => simpa using h
  | opa v => simpa using h
  | opb v => simpa using h
  | opc v => simpa using h
  | start v => simpa using h
  | bufLen v => simpa using h
  | byte a v ha => exact invariant_byteWrite v ha (by simpa using h)
  | command w i _ hf _ hx =>
    exact (exec_commandEffect hx).invariant (invariant_latchCommand w (by simpa using hf) (by simpa using h))
  | illegal w hf _ _ =>
    exact invariant_raiseFault .illegal (invariant_latchCommand w (by simpa using hf) (by simpa using h))
  | reset => exact invariant_hardReset h

theorem step_invariant {s t : State} (hs : step s = .next t) (h : invariant s = true) : invariant t = true := by
  rcases step_effect hs with ⟨_, rfl⟩ | ⟨_, _, _, he⟩
  · exact h
  · exact he.invariant (by simpa using h)

end Sys2Proof.Machine
end

section
/-! The ROM and its index (10_state.md R37, R38). -/

namespace Sys2Proof.Machine

/-- The top five bits of a 32-bit product. -/
theorem lutIndex_lt (f : Word32) : lutIndex f < 32 := by
  have h := (f * deBruijnConstant).isLt
  rw [lutIndex, BitVec.toNat_ushiftRight, Nat.shiftRight_eq_div_pow]
  omega

/-- The index of `2^(k+1) - 1`, the folded value whose logarithm is `k`. -/
def foldedIndex (k : Fin 32) : Fin 32 := ⟨lutIndex (BitVec.ofNat 32 (2 ^ (k.val + 1) - 1)), lutIndex_lt _⟩

theorem lut_getD_foldedIndex : ∀ k : Fin 32, lut.getD (foldedIndex k) 0 = BitVec.ofNat 5 k := by
  decide

/-- The values at the indices differ, so the indices do. -/
theorem foldedIndex_injective : Function.Injective foldedIndex := by
  intro j k h
  have hv : BitVec.ofNat 5 j = BitVec.ofNat 5 k := by
    rw [← lut_getD_foldedIndex j, ← lut_getD_foldedIndex k, h]
  have hn := congrArg BitVec.toNat hv
  simp only [BitVec.toNat_ofNat] at hn
  omega

/-- Every entry of a table of 32 is one that the folded values reach. -/
theorem foldedIndex_surjective : Function.Surjective foldedIndex :=
  Finite.surjective_of_injective foldedIndex_injective

/-- 32 entries fixed at the indices of the folded values are fixed everywhere. -/
theorem eq_lut_of_getD_foldedIndex {table : List (BitVec 5)} (hlen : table.length = 32)
    (h : ∀ k : Fin 32, table.getD (foldedIndex k) 0 = BitVec.ofNat 5 k) : table = lut := by
  refine List.ext_getElem (hlen.trans rfl) fun i hi hi' => ?_
  obtain ⟨k, hk⟩ := foldedIndex_surjective ⟨i, hlen ▸ hi⟩
  have hval : table.getD i 0 = lut.getD i 0 := by
    have hboth := (h k).trans (lut_getD_foldedIndex k).symm
    rwa [hk] at hboth
  rwa [List.getD_eq_getElem _ _ hi, List.getD_eq_getElem _ _ hi'] at hval

end Sys2Proof.Machine
end

section
/-! The statements about the state (10_state.md). -/

namespace Sys2Proof.Machine

/-- Settles O20: each of a line's effects keeps the invariant. -/
theorem stepKeepsTheInvariant : Obligations.StepKeepsTheInvariant := by
  intro s h
  obtain ⟨t, ht, _⟩ := step_answers s
  exact ⟨t, ht, step_invariant ht h⟩

/-- Settles O25: 32 distinct indices below 32 are all of them. -/
theorem romIsTheUniqueLog2Table : Obligations.RomIsTheUniqueLog2Table := by
  refine ⟨fun k hk => lut_getD_foldedIndex ⟨k, hk⟩, fun j hj k hk h => ?_, fun table hlen h => ?_, by decide, rfl⟩
  · exact congrArg Fin.val (foldedIndex_injective (a₁ := ⟨j, hj⟩) (a₂ := ⟨k, hk⟩) (Fin.ext h))
  · exact eq_lut_of_getD_foldedIndex hlen fun k => h k k.isLt

/-- Settles O36, by the four effects of a write to CMD. -/
theorem commandsNeverWriteOperands : Obligations.CommandsNeverWriteOperands := by
  intro s w rest hp
  obtain ⟨t, ht, he⟩ := commandWrite_effect w (afterReply .done rest s)
  obtain ⟨hopa, hopb, hopc, hstart, hlen, hparams⟩ := he.operandsKept
  refine ⟨t, (step_write_cmd hp).trans ht, hopa, hopb, hopc, hstart, hlen, hparams, he.cmd_eq,
    fun hs hf => he.result_buf_of_fault hs hf, fun heq => ?_⟩
  rcases he.latch_cases with hkept | ⟨hs, hf, _⟩
  · exact hkept
  · exact absurd (hf.symm.trans (heq.trans hs)) (by decide)

/-- Settles O38: the line is taken before its effect, and no effect touches the list or the index. -/
theorem indexAdvancesByOne : Obligations.IndexAdvancesByOne := by
  intro s e rest hp
  obtain ⟨t, ht, he⟩ := hostEvent_effect e (advance rest s)
  obtain ⟨hpending, hindex, _⟩ := he.runFrameKept
  have hreplies := hostEvent_replies ht
  exact ⟨t, (step_cons hp).trans ht, hpending, hindex, hreplies⟩

/-- Settles O40: of the lines, only the reset input and a write to CMD reach STATUS. -/
theorem statusChangesOnlyByFaultOrReset : Obligations.StatusChangesOnlyByFaultOrReset := by
  intro s
  obtain ⟨t, ht, ⟨_, rfl⟩ | ⟨e, rest, hp, _⟩⟩ := step_answers s
  · exact ⟨t, ht, fun hne => absurd rfl hne⟩
  refine ⟨t, ht, fun hne => ?_⟩
  rw [step_cons hp] at ht
  rcases hostEvent_cases ht with ⟨rfl, _⟩ | ⟨w, rfl, hw⟩ | hkept
  · exact .inl ⟨rest, hp⟩
  · rcases (commandWriteEffect_of_next hw).latch_cases with ⟨hst, _⟩ | ⟨hs, hf, hcmd⟩
    · exact absurd hst hne
    · exact .inr ⟨w, rest, hp, hs, hf, hcmd⟩
  · exact absurd hkept.status hne

/-- Settles O42, by induction on the length of the run. -/
theorem capAlwaysReadsTheCapacity : Obligations.CapAlwaysReadsTheCapacity := by
  intro s k
  obtain ⟨t, ht, hparams⟩ := runSteps_params k s
  refine ⟨t, ht, hparams, fun rest => ⟨fun hp => ?_, fun v hp => step_write_reg32 .cap rfl hp⟩⟩
  rw [← hparams]
  exact step_read_reg .cap hp

/-- Settles O12, by the rule for a read of any register. -/
theorem registersReadAsThemselves : Obligations.RegistersReadAsThemselves := by
  intro s rest
  exact ⟨step_read_reg .cmd, step_read_reg .status, step_read_reg .opa, step_read_reg .opb, step_read_reg .opc,
    step_read_reg .result, step_read_reg .start, step_read_reg .bufLen, step_read_reg .faultCmd, step_read_reg .cap⟩

/-- Settles O13, by the rule for a write of any register: the operands take the whole value, and a read-only register
leaves the reply alone. -/
theorem registerWritesTakeEffect : Obligations.RegisterWritesTakeEffect := by
  intro s rest v u
  refine ⟨fun h => ?opa, fun h => ?opb, fun h => ?opc, fun h => ?start, fun h => ?bufLen,
    step_write_reg32 .status rfl, step_write_reg64 .result rfl, step_write_reg32 .faultCmd rfl,
    step_write_reg32 .cap rfl⟩
  case opa => exact step_write_reg64 .opa rfl h
  case opb => exact step_write_reg64 .opb rfl h
  case opc => exact step_write_reg64 .opc rfl h
  case start => rw [step_write_reg32 .start rfl h, regWrite, setWidth_setWidth_word]; rfl
  case bufLen => rw [step_write_reg32 .bufLen rfl h, regWrite, setWidth_setWidth_word]; rfl

end Sys2Proof.Machine
end

section
/-! Which registers a command reads: its meaning as a function of the state it starts from (30_encoding.md R84). -/

namespace Sys2Proof.Machine

/-- The meaning of a command in terms of the registers it reads. `exec_shape` says what a command does in one state; here
one function serves every state, so that runs from two states can be compared. -/
inductive CommandForm (i : Instr) : Prop where
  /-- RESULT becomes a function of OPA. -/
  | value (f : Word64 → Word64) (hx : ∀ s, exec i s = writeResult (f s.opa) s)
  /-- A hash of the three operands. -/
  | hash (k : Nat) (h : Word64 → Word64 → Word64 → Word32)
      (hx : ∀ s, exec i s = hashCommand k (h s.opa s.opb s.opc) s)
  /-- The low bytes of OPA are stored. -/
  | store (n b : Nat) (hx : ∀ s, exec i s = writeCommand b (operandA n s) s)
  /-- The bytes that LoadBE reads are widened into RESULT. -/
  | load (n b : Nat) (widen : BitVec n → Word64)
      (hx : ∀ s, exec i s = readCommand b (widen (loadBE n s.buf (bufStart s) b)) s)

/-- The value command that applies `f` to the low `n` bits of OPA and widens the result by `widen`. -/
theorem CommandForm.ofOperandA {i : Instr} (n m : Nat) (widen : BitVec m → Word64) (f : BitVec n → BitVec m)
    (hx : ∀ s, exec i s = writeResult (widen (f (operandA n s))) s) : CommandForm i :=
  .value (fun a => widen (f (a.setWidth n))) hx

theorem exec_form (i : Instr) : CommandForm i := by
  cases i with
  | foldU8 => exact .ofOperandA 8 8 widenUnsigned fold fun _ => rfl
  | foldS8 => exact .ofOperandA 8 8 widenSigned fold fun _ => rfl
  | foldU16 => exact .ofOperandA 16 16 widenUnsigned fold fun _ => rfl
  | foldS16 => exact .ofOperandA 16 16 widenSigned fold fun _ => rfl
  | foldU32 => exact .ofOperandA 32 32 widenUnsigned fold fun _ => rfl
  | foldS32 => exact .ofOperandA 32 32 widenSigned fold fun _ => rfl
  | foldU64 => exact .ofOperandA 64 64 widenUnsigned fold fun _ => rfl
  | foldS64 => exact .ofOperandA 64 64 widenSigned fold fun _ => rfl
  | highbitU8 => exact .ofOperandA 8 8 widenUnsigned highBit fun _ => rfl
  | highbitS8 => exact .ofOperandA 8 8 widenSigned highBit fun _ => rfl
  | highbitU16 => exact .ofOperandA 16 16 widenUnsigned highBit fun _ => rfl
  | highbitS16 => exact .ofOperandA 16 16 widenSigned highBit fun _ => rfl
  | highbitU32 => exact .ofOperandA 32 32 widenUnsigned highBit fun _ => rfl
  | highbitS32 => exact .ofOperandA 32 32 widenSigned highBit fun _ => rfl
  | highbitU64 => exact .ofOperandA 64 64 widenUnsigned highBit fun _ => rfl
  | highbitS64 => exact .ofOperandA 64 64 widenSigned highBit fun _ => rfl
  | log2U32 => exact .ofOperandA 32 5 widenUnsigned log2 fun _ => rfl
  | popcntU32 => exact .ofOperandA 32 32 widenUnsigned popCount fun _ => rfl
  | popcntS32 => exact .ofOperandA 32 32 widenSigned popCount fun _ => rfl
  | uhashU32 k => exact .hash k (fun v a b => hash32 (v.setWidth 32) (a.setWidth 32) (b.setWidth 32) k) fun _ => rfl
  | uhashS32 k => exact .hash k (fun v a b => hash32 (v.setWidth 32) (a.setWidth 32) (b.setWidth 32) k) fun _ => rfl
  | uhashU64 k => exact .hash k (fun v a b => hash64 (v.setWidth 64) (a.setWidth 64) (b.setWidth 64) k) fun _ => rfl
  | uhashS64 k => exact .hash k (fun v a b => hash64 (v.setWidth 64) (a.setWidth 64) (b.setWidth 64) k) fun _ => rfl
  | swapU16 => exact .ofOperandA 16 16 widenUnsigned swapBytes fun _ => rfl
  | swapS16 => exact .ofOperandA 16 16 widenSigned swapBytes fun _ => rfl
  | swapU32 => exact .ofOperandA 32 32 widenUnsigned swapBytes fun _ => rfl
  | swapS32 => exact .ofOperandA 32 32 widenSigned swapBytes fun _ => rfl
  | swapU64 => exact .ofOperandA 64 64 widenUnsigned swapBytes fun _ => rfl
  | swapS64 => exact .ofOperandA 64 64 widenSigned swapBytes fun _ => rfl
  | writeU8 => exact .store 8 1 fun _ => rfl
  | writeS8 => exact .store 8 1 fun _ => rfl
  | writeU16 => exact .store 16 2 fun _ => rfl
  | writeS16 => exact .store 16 2 fun _ => rfl
  | writeU32 => exact .store 32 4 fun _ => rfl
  | writeS32 => exact .store 32 4 fun _ => rfl
  | writeU64 => exact .store 64 8 fun _ => rfl
  | writeS64 => exact .store 64 8 fun _ => rfl
  | writeF32 => exact .store 32 4 fun _ => rfl
  | writeF64 => exact .store 64 8 fun _ => rfl
  | readU8 => exact .load 8 1 widenUnsigned fun _ => rfl
  | readS8 => exact .load 8 1 widenSigned fun _ => rfl
  | readU16 => exact .load 16 2 widenUnsigned fun _ => rfl
  | readS16 => exact .load 16 2 widenSigned fun _ => rfl
  | readU32 => exact .load 32 4 widenUnsigned fun _ => rfl
  | readS32 => exact .load 32 4 widenSigned fun _ => rfl
  | readU64 => exact .load 64 8 widenUnsigned fun _ => rfl
  | readS64 => exact .load 64 8 widenSigned fun _ => rfl
  | readF32 => exact .load 32 4 widenUnsigned fun _ => rfl
  | readF64 => exact .load 64 8 widenUnsigned fun _ => rfl

end Sys2Proof.Machine
end

section
/-! The HOST_LE strap (10_state.md R40): the machine at one setting of the strap simulates the machine at the other,
operation by operation (20_memory.md R56). -/

namespace Sys2Proof.Machine

@[simp] theorem withHostLE_result (b : Bool) (s : State) : (withHostLE b s).result = s.result := rfl
@[simp] theorem withHostLE_buf (b : Bool) (s : State) : (withHostLE b s).buf = s.buf := rfl
@[simp] theorem faultBit_withHostLE (b : Bool) (s : State) : faultBit (withHostLE b s) = faultBit s := rfl

/-- The checks ask for the capacity and for no other parameter. -/
@[simp] theorem checkBuffer_withHostLE (n : Nat) (b : Bool) (s : State) :
    checkBuffer n (withHostLE b s) = checkBuffer n s := rfl

/-- The port asks for the base address and the capacity alone. -/
@[simp] theorem portTarget_withHostLE (b : Bool) (s : State) (addr width : Nat) :
    portTarget (withHostLE b s).params addr width = portTarget s.params addr width := rfl

@[simp] theorem readReg_withHostLE (r : Reg) (b : Bool) (s : State) : readReg r (withHostLE b s) = readReg r s := by
  cases r <;> rfl

@[simp] theorem outcomeOf_withHostLE (b : Bool) (s : State) : outcomeOf (withHostLE b s) = outcomeOf s := by
  simp only [outcomeOf, readReg_withHostLE, withHostLE_buf]
  rfl

/-- The operation `f` answers a next state, and with the strap at `b` it answers the same one with the strap at `b`. -/
def IgnoresHostLE (b : Bool) (f : State → Host.Outcome State Fault Refusal) (s : State) : Prop :=
  ∃ t, f s = .next t ∧ f (withHostLE b s) = .next (withHostLE b t)

theorem hashCommand_ignoresHostLE (b : Bool) (k : Nat) (h : Word32) (s : State) :
    IgnoresHostLE b (hashCommand k h) s := by
  rcases Nat.lt_or_ge 32 k with hk | hk
  · exact ⟨_, hashCommand_of_gt hk, hashCommand_of_gt hk⟩
  · exact ⟨_, hashCommand_of_le hk, hashCommand_of_le hk⟩

theorem writeCommand_ignoresHostLE (b : Bool) {n : Nat} (k : Nat) (v : BitVec n) (s : State) :
    IgnoresHostLE b (writeCommand k v) s := by
  cases hc : checkBuffer k s with
  | none => exact ⟨_, writeCommand_of_allowed hc, writeCommand_of_allowed ((checkBuffer_withHostLE k b s).trans hc)⟩
  | some c => exact ⟨_, writeCommand_of_fault hc, writeCommand_of_fault ((checkBuffer_withHostLE k b s).trans hc)⟩

theorem readCommand_ignoresHostLE (b : Bool) (k : Nat) (r : Word64) (s : State) :
    IgnoresHostLE b (readCommand k r) s := by
  cases hc : checkBuffer k s with
  | none => exact ⟨_, readCommand_of_allowed hc, readCommand_of_allowed ((checkBuffer_withHostLE k b s).trans hc)⟩
  | some c => exact ⟨_, readCommand_of_fault hc, readCommand_of_fault ((checkBuffer_withHostLE k b s).trans hc)⟩

theorem exec_ignoresHostLE (b : Bool) (i : Instr) (s : State) : IgnoresHostLE b (exec i) s := by
  unfold IgnoresHostLE
  cases exec_form i with
  | value f hx => exact ⟨_, hx s, hx (withHostLE b s)⟩
  | hash k h hx =>
    rw [hx s, hx (withHostLE b s)]
    exact hashCommand_ignoresHostLE b k _ s
  | store n k hx =>
    rw [hx s, hx (withHostLE b s)]
    exact writeCommand_ignoresHostLE b k _ s
  | load n k widen hx =>
    rw [hx s, hx (withHostLE b s)]
    exact readCommand_ignoresHostLE b k _ s

theorem commandWrite_ignoresHostLE (b : Bool) (w : Word32) (s : State) : IgnoresHostLE b (commandWrite w) s := by
  unfold IgnoresHostLE commandWrite
  rw [faultBit_withHostLE]
  split
  · exact ⟨s, rfl, rfl⟩
  split
  · next i _ => exact exec_ignoresHostLE b i (latchCommand w s)
  · exact ⟨_, rfl, rfl⟩

theorem regWrite_ignoresHostLE (b : Bool) (r : Reg) (v : Word64) (s : State) : IgnoresHostLE b (regWrite r v) s := by
  cases r with
  | cmd => exact commandWrite_ignoresHostLE b _ s
  | _ => exact ⟨_, rfl, rfl⟩

theorem hostRead_withHostLE (b : Bool) (addr width : Nat) (s : State) :
    hostRead addr width (withHostLE b s) = withHostLE b (hostRead addr width s) := by
  simp only [hostRead, portTarget_withHostLE]
  split
  · rw [readReg_withHostLE]; rfl
  · rfl
  · rfl

theorem hostWrite_ignoresHostLE (b : Bool) (addr width : Nat) (data : BitVec width) (s : State) :
    IgnoresHostLE b (hostWrite addr width data) s := by
  unfold IgnoresHostLE hostWrite
  rw [portTarget_withHostLE]
  split
  · next r _ => exact regWrite_ignoresHostLE b r _ (logReply .done s)
  · exact ⟨_, rfl, rfl⟩
  · exact ⟨_, rfl, rfl⟩

theorem hostEvent_ignoresHostLE (b : Bool) (e : HostEvent) (s : State) : IgnoresHostLE b (hostEvent e) s := by
  cases e with
  | read addr width => exact ⟨_, rfl, congrArg _ (hostRead_withHostLE b addr width s)⟩
  | write addr width data => exact hostWrite_ignoresHostLE b addr width data s
  | reset => exact ⟨_, rfl, rfl⟩

theorem step_ignoresHostLE (b : Bool) (s : State) : IgnoresHostLE b step s := by
  cases hp : s.pending with
  | nil => exact ⟨s, step_nil hp, step_nil (s := withHostLE b s) hp⟩
  | cons e rest =>
    obtain ⟨t, ht, hu⟩ := hostEvent_ignoresHostLE b e (advance rest s)
    exact ⟨t, (step_cons hp).trans ht, (step_cons (s := withHostLE b s) hp).trans hu⟩

theorem runSteps_ignoresHostLE (b : Bool) (k : Nat) (s : State) : IgnoresHostLE b (runSteps k) s := by
  induction k generalizing s with
  | zero => exact ⟨s, rfl, rfl⟩
  | succ k ih =>
    obtain ⟨v, hv, hw⟩ := step_ignoresHostLE b s
    obtain ⟨t, ht, hu⟩ := ih v
    exact ⟨t, (runSteps_succ k hv).trans ht, (runSteps_succ k hw).trans hu⟩

/-- Settles O43: the two runs stay in step, and the outcome does not show the strap. -/
theorem hostByteOrderIsInvisible : Obligations.HostByteOrderIsInvisible := by
  intro s k b
  obtain ⟨t, ht, hu⟩ := runSteps_ignoresHostLE b k s
  exact ⟨t, withHostLE b t, ht, hu, withHostLE_buf b t, withHostLE_result b t, outcomeOf_withHostLE b t⟩

end Sys2Proof.Machine
end

section
/-! What a command reads and writes of the buffer lies below BUFLEN (20_memory.md R52). -/

namespace Sys2Proof.Machine

/-- The checks do not ask for the bytes of the buffer. -/
@[simp] theorem checkBuffer_setBuf (b : Nat) (m : Memory) (s : State) : checkBuffer b (setBuf m s) = checkBuffer b s := rfl

@[simp] theorem bufStart_setBuf (m : Memory) (s : State) : bufStart (setBuf m s) = bufStart s := rfl

/-- A span that passes the checks ends below BUFLEN. -/
theorem bufStart_add_lt_bufLen {b : Nat} {s : State} (hc : checkBuffer b s = none) :
    bufStart s + b < s.bufLen.toNat := by
  obtain ⟨_, hstart, hend⟩ := (checkBuffer_none_iff b s).1 hc
  unfold bufStart startOffset
  omega

/-- A command leaves every byte at or beyond BUFLEN. -/
theorem CommandEffect.read_beyond_bufLen {s t : State} (he : CommandEffect s t) (hw : Memory.wf s.buf = true) {a : Nat}
    (ha : s.bufLen.toNat ≤ a) : Memory.read t.buf a = Memory.read s.buf a := by
  cases he with
  | result v => rfl
  | faulted c _ => rfl
  | stored b v hc =>
    have hspan := bufStart_add_lt_bufLen hc
    rw [setBuf_buf, read_storeBE hw, if_neg (by omega)]

/-- The memories read alike below `len`. -/
def AgreeBelow (len : Nat) (m m' : Memory) : Prop := ∀ a < len, Memory.read m a = Memory.read m' a

theorem AgreeBelow.storeBE {n len : Nat} {m m' : Memory} (h : AgreeBelow len m m') (hm : Memory.wf m = true)
    (hm' : Memory.wf m' = true) (start : Nat) (v : BitVec n) (b : Nat) :
    AgreeBelow len (storeBE m start v b) (storeBE m' start v b) := by
  intro a ha
  rw [read_storeBE hm, read_storeBE hm', h a ha]

theorem AgreeBelow.loadBE_eq {len : Nat} {m m' : Memory} (h : AgreeBelow len m m') (n : Nat) {start b : Nat}
    (hspan : start + b ≤ len) : loadBE n m start b = loadBE n m' start b :=
  loadBE_congr start b fun a _ ha => h a (by omega)

/-- The operation `f` does not see the bytes at or beyond `len`: on `m` in place of the buffer, which agrees with it below
`len`, it answers the same next state but for a buffer that agrees below `len` again. -/
def ReadsBelow (len : Nat) (m : Memory) (f : State → Host.Outcome State Fault Refusal) (s : State) : Prop :=
  ∃ t m', f s = .next t ∧ f (setBuf m s) = .next (setBuf m' t) ∧ AgreeBelow len m' t.buf

theorem hashCommand_readsBelow {s : State} {m : Memory} {len : Nat} (k : Nat) (h : Word32)
    (hm : AgreeBelow len m s.buf) : ReadsBelow len m (hashCommand k h) s := by
  rcases Nat.lt_or_ge 32 k with hk | hk
  · exact ⟨_, m, hashCommand_of_gt hk, hashCommand_of_gt hk, hm⟩
  · exact ⟨_, m, hashCommand_of_le hk, hashCommand_of_le hk, hm⟩

theorem writeCommand_readsBelow {s : State} {m : Memory} {len : Nat} {n : Nat} (b : Nat) (v : BitVec n)
    (hs : Memory.wf s.buf = true) (hw : Memory.wf m = true) (hm : AgreeBelow len m s.buf) :
    ReadsBelow len m (writeCommand b v) s := by
  cases hc : checkBuffer b s with
  | none =>
    exact ⟨_, _, writeCommand_of_allowed hc, writeCommand_of_allowed ((checkBuffer_setBuf b m s).trans hc),
      hm.storeBE hw hs _ v b⟩
  | some c => exact ⟨_, m, writeCommand_of_fault hc, writeCommand_of_fault ((checkBuffer_setBuf b m s).trans hc), hm⟩

theorem exec_readsBelow (i : Instr) {s : State} {m : Memory} (hs : Memory.wf s.buf = true) (hw : Memory.wf m = true)
    (hm : AgreeBelow s.bufLen.toNat m s.buf) : ReadsBelow s.bufLen.toNat m (exec i) s := by
  unfold ReadsBelow
  cases exec_form i with
  | value f hx => exact ⟨_, m, hx s, hx (setBuf m s), hm⟩
  | hash k h hx =>
    rw [hx s, hx (setBuf m s)]
    exact hashCommand_readsBelow k _ hm
  | store n b hx =>
    rw [hx s, hx (setBuf m s)]
    exact writeCommand_readsBelow b _ hs hw hm
  | load n b widen hx =>
    rw [hx s, hx (setBuf m s), setBuf_buf, bufStart_setBuf]
    cases hc : checkBuffer b s with
    | none =>
      have hspan := bufStart_add_lt_bufLen hc
      rw [hm.loadBE_eq n (by omega)]
      exact ⟨_, m, readCommand_of_allowed hc, readCommand_of_allowed ((checkBuffer_setBuf b m s).trans hc), hm⟩
    | some c =>
      exact ⟨_, m, readCommand_of_fault hc, readCommand_of_fault ((checkBuffer_setBuf b m s).trans hc), hm⟩

/-- Settles O35: the effect of a command stays below BUFLEN, and its form reads nothing beyond. -/
theorem unitStaysInsideTheCallersBuffer : Obligations.UnitStaysInsideTheCallersBuffer := by
  intro i s hs
  obtain ⟨t, ht, he⟩ := exec_effect i s
  refine ⟨t, ht, fun a ha => he.read_beyond_bufLen hs ha, fun m hw hm => ?_⟩
  obtain ⟨t', m', ht', hu, hbelow⟩ := exec_readsBelow i hs hw hm
  obtain rfl : t = t' := by simpa [ht] using ht'
  exact ⟨setBuf m' t, hu, rfl, hbelow⟩

end Sys2Proof.Machine
end

section
/-! Loads of what a store left (20_memory.md R55, R57). -/

namespace Sys2Proof.Machine

/-- A load of `c` bytes inside a store of `b` bytes, `j` bytes from its start, gives the bits of the value that stand there:
the first byte in memory is the most significant one. -/
theorem loadBE_storeBE {n : Nat} {m : Memory} (h : Memory.wf m = true) (start : Nat) (v : BitVec n) {b c j : Nat}
    (hspan : j + c ≤ b) :
    loadBE (8 * c) (storeBE m start v b) (start + j) c = v.extractLsb' (8 * (b - j - c)) (8 * c) := by
  refine BitVec.eq_of_getLsbD_eq fun i hi => ?_
  have hbit : 8 * (b - 1 - (start + j + (c - 1 - i / 8) - start)) + i % 8 = 8 * (b - j - c) + i := by omega
  rw [loadBE_getLsbD, read_storeBE h, if_pos (by omega), BitVec.getLsbD_extractLsb', BitVec.getLsbD_extractLsb', hbit]
  simp [hi, Nat.mod_lt]

/-- `LoadBE(s, B)` right after `StoreBE(s, B, v)` (20_memory.md R55). -/
theorem loadBE_storeBE_self {b : Nat} {m : Memory} (h : Memory.wf m = true) (start : Nat) (v : BitVec (8 * b)) :
    loadBE (8 * b) (storeBE m start v b) start b = v := by
  simpa using loadBE_storeBE h start v (b := b) (c := b) (j := 0) (by omega)

theorem exec_write_then_read {b : Nat} {w r : Instr} {widen : BitVec (8 * b) → Word64}
    (hw : ∀ s, exec w s = writeCommand b (operandA (8 * b) s) s)
    (hr : ∀ s, exec r s = readCommand b (widen (loadBE (8 * b) s.buf (bufStart s) b)) s)
    (s : State) (hs : Memory.wf s.buf = true) (ha : accessAllowed b s) :
    ∃ t u, exec w s = .next t ∧ exec r t = .next u ∧ u.result = widen (s.opa.setWidth (8 * b)) := by
  have hc : checkBuffer b s = none := (checkBuffer_none_iff b s).2 ha
  refine ⟨_, _, (hw s).trans (writeCommand_of_allowed hc),
    (hr _).trans (readCommand_of_allowed ((checkBuffer_setBuf _ _ _).trans hc)), ?_⟩
  rw [setResult_result, setBuf_buf, bufStart_setBuf, loadBE_storeBE_self hs]
  rfl

/-- Settles O33, one application of the rule for each type. -/
theorem writeThenReadReturnsTheValue : Obligations.WriteThenReadReturnsTheValue := by
  unfold Obligations.WriteThenReadReturnsTheValue
  simp only [List.forall_mem_cons]
  refine ⟨?u8, ?s8, ?u16, ?s16, ?u32, ?s32, ?u64, ?s64, ?f32, ?f64, List.forall_mem_nil _⟩
  case u8 => exact exec_write_then_read (b := 1) (widen := widenUnsigned) (fun _ => rfl) (fun _ => rfl)
  case s8 => exact exec_write_then_read (b := 1) (widen := widenSigned) (fun _ => rfl) (fun _ => rfl)
  case u16 => exact exec_write_then_read (b := 2) (widen := widenUnsigned) (fun _ => rfl) (fun _ => rfl)
  case s16 => exact exec_write_then_read (b := 2) (widen := widenSigned) (fun _ => rfl) (fun _ => rfl)
  case u32 => exact exec_write_then_read (b := 4) (widen := widenUnsigned) (fun _ => rfl) (fun _ => rfl)
  case s32 => exact exec_write_then_read (b := 4) (widen := widenSigned) (fun _ => rfl) (fun _ => rfl)
  case u64 => exact exec_write_then_read (b := 8) (widen := widenUnsigned) (fun _ => rfl) (fun _ => rfl)
  case s64 => exact exec_write_then_read (b := 8) (widen := widenSigned) (fun _ => rfl) (fun _ => rfl)
  case f32 => exact exec_write_then_read (b := 4) (widen := widenUnsigned) (fun _ => rfl) (fun _ => rfl)
  case f64 => exact exec_write_then_read (b := 8) (widen := widenUnsigned) (fun _ => rfl) (fun _ => rfl)

/-- Bits of OPA that lie inside its low `n` bits. -/
theorem extractLsb'_operandA {n i k : Nat} (s : State) (h : i + k ≤ n) :
    (operandA n s).extractLsb' i k = BitVec.ofNat k (s.opa.toNat / 2 ^ i) := by
  refine BitVec.eq_of_getLsbD_eq fun x hx => ?_
  rw [operandA, BitVec.getLsbD_extractLsb', BitVec.getLsbD_setWidth, BitVec.getLsbD_ofNat, Nat.testBit_div_two_pow,
    BitVec.testBit_toNat]
  simp [hx, show i + x < n by omega, Nat.add_comm]

theorem byteOf_eq_ofNat (v : Word64) (i : Nat) : byteOf v i = BitVec.ofNat 8 (v.toNat / 2 ^ (8 * i)) := by
  rw [byteOf, Nat.pow_mul]

theorem widenUnsigned_ofNat (k x : Nat) : widenUnsigned (BitVec.ofNat k x) = BitVec.ofNat 64 (x % 2 ^ k) := by
  rw [widenUnsigned, ← BitVec.ofNat_toNat, BitVec.toNat_ofNat]

/-- What the READ of `c` bytes finds `j` bytes into the span of a WRITE.U32 (20_memory.md R57). -/
theorem loadBE_after_writeU32 {s u : State} (hs : Memory.wf s.buf = true) (ha : accessAllowed 4 s) {c j : Nat}
    (hbuf : u.buf = storeBE s.buf (bufStart s) (operandA 32 s) 4) (hstart : u.start.toInt = s.start.toInt + j)
    (hspan : j + c ≤ 4) :
    loadBE (8 * c) u.buf (bufStart u) c = BitVec.ofNat (8 * c) (s.opa.toNat / 2 ^ (8 * (4 - j - c))) := by
  have hu : bufStart u = bufStart s + j := by
    obtain ⟨_, hnonneg, _⟩ := ha
    unfold bufStart startOffset
    omega
  rw [hu, hbuf, loadBE_storeBE hs _ _ hspan, extractLsb'_operandA s (by omega)]

/-- Settles O34: each narrow READ widens the bits that the store left in its span. -/
theorem narrowReadsSeeTheBytesOfAWideWrite : Obligations.NarrowReadsSeeTheBytesOfAWideWrite := by
  intro s hs ha
  refine ⟨_, writeCommand_of_allowed ((checkBuffer_none_iff 4 s).2 ha),
    fun u j hbuf hstart => ⟨fun hj ha2 => ?halfword, fun hj ha1 => ?byte⟩⟩
  case halfword =>
    have hc := (checkBuffer_none_iff 2 u).2 ha2
    have hload : loadBE 16 u.buf (bufStart u) 2 = BitVec.ofNat 16 (s.opa.toNat / 2 ^ (16 - 8 * j)) := by
      rw [loadBE_after_writeU32 (c := 2) hs ha hbuf hstart (by omega), show 8 * (4 - j - 2) = 16 - 8 * j by omega]
    rw [← widenUnsigned_ofNat, ← hload]
    exact ⟨readCommand_of_allowed hc, readCommand_of_allowed hc⟩
  case byte =>
    have hc := (checkBuffer_none_iff 1 u).2 ha1
    have hload : loadBE 8 u.buf (bufStart u) 1 = byteOf s.opa (3 - j) := by
      rw [loadBE_after_writeU32 (c := 1) hs ha hbuf hstart (by omega), byteOf_eq_ofNat,
        show 4 - j - 1 = 3 - j by omega]
    rw [← hload]
    exact ⟨readCommand_of_allowed hc, readCommand_of_allowed hc⟩

end Sys2Proof.Machine
end

section
/-! The buffer window as the port reaches it (20_memory.md R50, R65). -/

namespace Sys2Proof.Machine

/-- A transaction at offset `0x1000 + a` reaches the byte `BUF[a]` or nothing. -/
theorem portTarget_window (p : Params) (a width : Nat) :
    portTarget p (p.bmuBase + bufWindow + a) width =
      if width = 8 ∧ a < p.bufCap then some (.byte a) else none := by
  have hoffset : p.bmuBase + bufWindow + a - p.bmuBase = bufWindow + a := by omega
  rw [portTarget, if_neg (by omega), hoffset, if_neg (by omega), Nat.add_sub_cancel_left]

theorem portTarget_bufferByte {p : Params} {a : Nat} (ha : a < p.bufCap) :
    portTarget p (p.bmuBase + bufWindow + a) 8 = some (.byte a) := by
  rw [portTarget_window, if_pos ⟨rfl, ha⟩]

theorem portTarget_window_none {p : Params} {a width : Nat} (h : p.bufCap ≤ a ∨ width ≠ 8) :
    portTarget p (p.bmuBase + bufWindow + a) width = none := by
  rw [portTarget_window, if_neg (by omega)]

theorem step_read_of_portTarget_none {s : State} {addr width : Nat} {rest : List HostEvent}
    (ht : portTarget s.params addr width = none) (h : s.pending = .read addr width :: rest) :
    step s = .next (afterReply .busError rest s) := by
  rw [step_cons h, hostEvent, hostRead, advance_params, ht]
  rfl

theorem step_write_of_portTarget_none {s : State} {addr width : Nat} {d : BitVec width} {rest : List HostEvent}
    (ht : portTarget s.params addr width = none) (h : s.pending = .write addr width d :: rest) :
    step s = .next (afterReply .writeBusError rest s) := by
  rw [step_cons h, hostEvent, hostWrite, advance_params, ht]
  rfl

theorem step_read_of_portTarget_byte {s : State} {addr width a : Nat} {rest : List HostEvent}
    (ht : portTarget s.params addr width = some (.byte a)) (h : s.pending = .read addr width :: rest) :
    step s = .next (afterReply (.data8 (Memory.read s.buf a)) rest s) := by
  rw [step_cons h, hostEvent, hostRead, advance_params, ht]
  rfl

theorem step_write_of_portTarget_byte {s : State} {addr width a : Nat} {d : BitVec width} {rest : List HostEvent}
    (ht : portTarget s.params addr width = some (.byte a)) (h : s.pending = .write addr width d :: rest) :
    step s = .next (byteWrite a (d.setWidth 8) (afterReply .done rest s)) := by
  rw [step_cons h, hostEvent, hostWrite, advance_params, ht]
  rfl

/-- Settles O14, by what a transaction in the window reaches. -/
theorem bufferWindowTransactions : Obligations.BufferWindowTransactions := by
  intro s rest a
  refine ⟨fun ha hp => ?read, fun v ha hp => ?write, fun width ha hp => ?refusedRead, fun width v ha hp => ?refusedWrite⟩
  case read => exact step_read_of_portTarget_byte (portTarget_bufferByte ha) hp
  case write =>
    refine ⟨Memory.write s.buf a v, ?_, fun hw x => ?_⟩
    · rw [step_write_of_portTarget_byte (portTarget_bufferByte ha) hp, BitVec.setWidth_eq]
      rfl
    · exact (Memory.read_write hw a x v).trans (if_congr eq_comm rfl rfl)
  case refusedRead => exact step_read_of_portTarget_none (portTarget_window_none ha) hp
  case refusedWrite => exact step_write_of_portTarget_none (portTarget_window_none ha) hp

end Sys2Proof.Machine
end

section
/-! Side effects of a transaction (20_memory.md R66). -/

namespace Sys2Proof.Machine

/-- A second write of the same byte changes nothing. -/
theorem Memory.write_write_same {m : Memory} (h : Memory.wf m = true) (a : Nat) (b : Byte) :
    Memory.write (Memory.write m a b) a b = Memory.write m a b := by
  refine Memory.ext_of_read (Memory.write_wf (Memory.write_wf h)) (Memory.write_wf h) fun x => ?_
  rw [Memory.read_write (Memory.write_wf h), Memory.read_write h]
  split <;> rfl

/-- The BMU of `u` is that of `t`; the host has `rest` still to come, and its index and replies are its own. -/
def SameUnit (rest : List HostEvent) (t u : State) : Prop :=
  u = { t with pending := rest, txIndex := u.txIndex, replies := u.replies }

/-- A register other than CMD takes the same value twice as it does once. -/
theorem regWrite_twice {r : Reg} (hr : r ≠ .cmd) (v : Word64) (rest : List HostEvent) (s : State) :
    ∃ t u, regWrite r v s = .next t ∧ RunFrameKept s t ∧ regWrite r v (afterReply .done rest t) = .next u ∧
      SameUnit rest t u := by
  cases r with
  | cmd => exact absurd rfl hr
  | _ => exact ⟨_, _, rfl, ⟨rfl, rfl, rfl⟩, rfl, rfl⟩

theorem byteWrite_twice {s : State} (hs : Memory.wf s.buf = true) (a : Nat) (v : Byte) (rest : List HostEvent) :
    SameUnit rest (byteWrite a v s) (byteWrite a v (afterReply .done rest (byteWrite a v s))) :=
  congrArg (fun m => setBuf m (afterReply .done rest s)) (Memory.write_write_same hs a v)

/-- Two equal writes in a row, by what they reach: the second leaves the BMU as the first did. -/
theorem step_write_twice {s : State} {addr width : Nat} {v : BitVec width} {rest : List HostEvent}
    (hs : Memory.wf s.buf = true) (hcmd : portTarget s.params addr width ≠ some (.reg .cmd))
    (hp : s.pending = .write addr width v :: .write addr width v :: rest) :
    ∃ t u, step s = .next t ∧ step t = .next u ∧ SameUnit rest t u := by
  match ht : portTarget s.params addr width with
  | none =>
    exact ⟨_, _, step_write_of_portTarget_none ht hp, step_write_of_portTarget_none ht rfl, rfl⟩
  | some (.byte a) =>
    exact ⟨_, _, step_write_of_portTarget_byte ht hp, step_write_of_portTarget_byte ht rfl,
      byteWrite_twice (s := afterReply .done (.write addr width v :: rest) s) hs a _ rest⟩
  | some (.reg r) =>
    have hr : r ≠ .cmd := fun h => hcmd (h ▸ ht)
    obtain ⟨t, u, hfirst, ⟨hpending, _, hparams⟩, hsecond, hsame⟩ :=
      regWrite_twice hr (v.setWidth 64) rest (afterReply .done (.write addr width v :: rest) s)
    have ht' : portTarget t.params addr width = some (.reg r) := hparams ▸ ht
    exact ⟨t, u, (step_write_of_portTarget ht hp).trans hfirst, (step_write_of_portTarget ht' hpending).trans hsecond,
      hsame⟩

/-- Settles O44: a read only logs its reply, and each target of a write other than CMD takes a value twice as once. -/
theorem readsHaveNoSideEffect : Obligations.ReadsHaveNoSideEffect := by
  refine ⟨fun s addr width rest hp => ?read, fun s addr width v rest hs hcmd hp => ?write⟩
  case read =>
    obtain ⟨r, hr, _⟩ := hostRead_reply addr width (advance rest s)
    exact ⟨r, (step_cons hp).trans (congrArg _ hr)⟩
  case write =>
    exact step_write_twice hs (fun ht => hcmd (portTarget_eq_reg_iff.1 ht)) hp

end Sys2Proof.Machine
end

section
/-! The command word and its fields (30_encoding.md R71): a word whose reserved bits are zero is the packing of its
fields, and the mask of the UHASH rows clears the K field alone. -/

namespace Sys2Proof

/-- The fields of R71 that a command word holds. -/
def fieldsOf (w : Word32) : CommandFields :=
  ⟨opField w, widthField w, signedField w, floatField w, countField w⟩

/-- The fields with the bit count `c`. -/
def CommandFields.withCount (f : CommandFields) (c : BitVec 6) : CommandFields := { f with count := c }

/-- Clearing the bit count loses nothing else. -/
theorem CommandFields.withCount_zero_eq_iff {f g : CommandFields} (hg : g.count = 0) :
    f.withCount 0 = g ↔ f = g.withCount f.count := by
  cases f
  cases g
  simp_all [withCount]

/-- R71, bit by bit: each field has its own span of the word, and the bits above K are zero. -/
theorem getLsbD_packFields (f : CommandFields) (i : Nat) :
    (packFields f).getLsbD i =
      if i < 4 then f.op.getLsbD i
      else if i < 6 then f.width.getLsbD (i - 4)
      else if i < 7 then f.signed.getLsbD (i - 6)
      else if i < 8 then f.float.getLsbD (i - 7)
      else f.count.getLsbD (i - 8) := by
  simp only [packFields, BitVec.getLsbD_or, BitVec.getLsbD_shiftLeft, BitVec.getLsbD_setWidth]
  grind

theorem extractLsb'_eq_iff {n m : Nat} (w : BitVec n) (start : Nat) (x : BitVec m) :
    w.extractLsb' start m = x ↔ ∀ i < m, w.getLsbD (start + i) = x.getLsbD i := by
  constructor
  · rintro rfl i hi
    simp [hi]
  · intro h
    refine BitVec.eq_of_getLsbD_eq fun i hi => ?_
    simp [hi, h i hi]

@[simp] theorem reservedField_packFields (f : CommandFields) : reservedField (packFields f) = 0 :=
  (extractLsb'_eq_iff _ _ _).2 fun i _ => by grind [getLsbD_packFields]

@[simp] theorem fieldsOf_packFields (f : CommandFields) : fieldsOf (packFields f) = f := by
  have hop : opField (packFields f) = f.op :=
    (extractLsb'_eq_iff _ _ _).2 fun i _ => by grind [getLsbD_packFields]
  have hwidth : widthField (packFields f) = f.width :=
    (extractLsb'_eq_iff _ _ _).2 fun i _ => by grind [getLsbD_packFields]
  have hsigned : signedField (packFields f) = f.signed :=
    (extractLsb'_eq_iff _ _ _).2 fun i _ => by grind [getLsbD_packFields]
  have hfloat : floatField (packFields f) = f.float :=
    (extractLsb'_eq_iff _ _ _).2 fun i _ => by grind [getLsbD_packFields]
  have hcount : countField (packFields f) = f.count :=
    (extractLsb'_eq_iff _ _ _).2 fun i _ => by grind [getLsbD_packFields]
  simp only [fieldsOf, hop, hwidth, hsigned, hfloat, hcount]

/-- No bit of a word lies outside its fields and the reserved bits. -/
theorem packFields_fieldsOf {w : Word32} (h : reservedField w = 0) : packFields (fieldsOf w) = w := by
  have hres : ∀ j < 18, w.getLsbD (14 + j) = (0#18).getLsbD j := (extractLsb'_eq_iff w 14 0#18).1 h
  refine BitVec.eq_of_getLsbD_eq fun i hi => ?_
  by_cases hk : i < 14
  · simp only [getLsbD_packFields, fieldsOf, opField, widthField, signedField, floatField, countField,
      BitVec.getLsbD_extractLsb']
    grind
  · obtain ⟨j, rfl⟩ := Nat.exists_eq_add_of_le (Nat.le_of_not_lt hk)
    rw [hres j (by omega)]
    grind [getLsbD_packFields]

theorem packFields_eq_iff {f : CommandFields} {w : Word32} :
    packFields f = w ↔ reservedField w = 0 ∧ fieldsOf w = f := by
  constructor
  · rintro rfl
    simp
  · rintro ⟨hres, rfl⟩
    exact packFields_fieldsOf hres

/-- The mask of the UHASH rows keeps the reserved bits. -/
theorem reservedField_and_hashMask (w : Word32) : reservedField (w &&& 0xFFFFC0FF) = reservedField w := by
  have hmask : (0xFFFFC0FF : Word32).extractLsb' 14 18 = BitVec.allOnes 18 := by decide
  rw [reservedField, BitVec.extractLsb'_and, hmask, BitVec.and_allOnes, reservedField]

/-- The mask of the UHASH rows clears K and keeps every other field. -/
theorem fieldsOf_and_hashMask (w : Word32) :
    fieldsOf (w &&& 0xFFFFC0FF) = (fieldsOf w).withCount 0 := by
  have hop : (0xFFFFC0FF : Word32).extractLsb' 0 4 = BitVec.allOnes 4 := by decide
  have hwidth : (0xFFFFC0FF : Word32).extractLsb' 4 2 = BitVec.allOnes 2 := by decide
  have hsigned : (0xFFFFC0FF : Word32).extractLsb' 6 1 = BitVec.allOnes 1 := by decide
  have hfloat : (0xFFFFC0FF : Word32).extractLsb' 7 1 = BitVec.allOnes 1 := by decide
  have hcount : (0xFFFFC0FF : Word32).extractLsb' 8 6 = 0 := by decide
  simp only [fieldsOf, CommandFields.withCount, opField, widthField, signedField, floatField, countField,
    BitVec.extractLsb'_and, hop, hwidth, hsigned, hfloat, hcount, BitVec.and_allOnes]
  simp only [BitVec.ofNat_eq_ofNat, BitVec.and_zero]

end Sys2Proof
end

section
/-! The rows of the opcode map (30_encoding.md R79), each read through the encoder: a row matches the words that the
encoder gives its commands, and no word matches two rows. -/

namespace Sys2Proof.Machine

/-- A row compares the whole word and stands for one command, or leaves K free and stands for a type of UHASH. -/
inductive RowShape (r : OpcodeRow) : Prop where
  /-- The row stands for the command `i` alone. -/
  | whole (i : Instr) (hbuild : ∀ k, r.build k = i) (hmask : r.mask = 0xFFFFFFFF) (hpattern : r.pattern = encode i)
      (hbits : bitCount i = none)
  /-- The row stands for one type of UHASH, whose bit count is the word's K. -/
  | counted (hmask : r.mask = 0xFFFFC0FF) (hpattern : r.pattern = encode (r.build 0))
      (hfields : ∀ k, commandFields (r.build k) = (commandFields (r.build 0)).withCount (BitVec.ofNat 6 k))
      (hbits : ∀ k, bitCount (r.build k) = some k)

theorem wordRows_shape : ∀ r ∈ wordRows, RowShape r := by
  simp only [wordRows, List.forall_mem_cons, List.not_mem_nil, false_imp_iff, implies_true, and_true]
  refine ⟨?log2, ?popcntU32, ?popcntS32, ?uhashU32, ?uhashS32, ?uhashU64, ?uhashS64⟩
  case log2 | popcntU32 | popcntS32 => exact .whole _ (fun _ => rfl) rfl rfl rfl
  case uhashU32 | uhashS32 | uhashU64 | uhashS64 => exact .counted rfl rfl (fun _ => rfl) (fun _ => rfl)

/-- Outside LOG2, POPCNT and UHASH no row leaves a bit free. -/
theorem wholeRows_shape : ∀ r ∈ foldRows ++ highBitRows ++ swapRows ++ writeRows ++ readRows, RowShape r := by
  simp only [foldRows, highBitRows, swapRows, writeRows, readRows, List.cons_append, List.nil_append,
    List.forall_mem_cons, List.not_mem_nil, false_imp_iff, implies_true, and_true]
  and_intros <;> exact .whole _ (fun _ => rfl) rfl rfl rfl

theorem opcodeRows_shape {r : OpcodeRow} (hr : r ∈ opcodeRows) : RowShape r := by
  by_cases hword : r ∈ wordRows
  · exact wordRows_shape r hword
  · refine wholeRows_shape r ?_
    simpa only [opcodeRows, List.mem_append, hword, or_false] using hr

/-- A row matches a word exactly where the word is the encoding of the row's command with the word's K field. -/
theorem matchesWord_iff_encode {r : OpcodeRow} (hr : r ∈ opcodeRows) {w : Word32} :
    r.matchesWord w = true ↔ encode (r.build (countField w).toNat) = w := by
  rw [OpcodeRow.matchesWord, decide_eq_true_iff]
  cases opcodeRows_shape hr with
  | whole i hbuild hmask hpattern _ =>
    have hall : (0xFFFFFFFF : Word32) = BitVec.allOnes 32 := by decide
    rw [hmask, hpattern, hbuild, hall, BitVec.and_allOnes, eq_comm]
  | counted hmask hpattern hfields _ =>
    have hzero : (commandFields (r.build 0)).count = 0 := congrArg CommandFields.count (hfields 0)
    have hcount : BitVec.ofNat 6 (countField w).toNat = (fieldsOf w).count := by
      rw [BitVec.ofNat_toNat, BitVec.setWidth_eq, fieldsOf]
    rw [hmask, hpattern, encode, encode, eq_comm, packFields_eq_iff, packFields_eq_iff,
      hfields (countField w).toNat, hcount, reservedField_and_hashMask, fieldsOf_and_hashMask,
      CommandFields.withCount_zero_eq_iff hzero]

/-- Only a bit count can keep a command from being well formed (30_encoding.md R76). -/
theorem wellFormed_eq_bitCountFits (i : Instr) : i.wellFormed = (bitCount i).all bitCountFits := by
  cases i <;> rfl

theorem build_wellFormed {r : OpcodeRow} (hr : r ∈ opcodeRows) {k : Nat} (hk : k < 64) :
    (r.build k).wellFormed = true := by
  rw [wellFormed_eq_bitCountFits]
  cases opcodeRows_shape hr with
  | whole i hbuild _ _ hbits => rw [hbuild, hbits, Option.all_none]
  | counted _ _ _ hbits => rw [hbits, Option.all_some, bitCountFits, decide_eq_true hk]

/-- A row's command for the bit count `k` is also its command for the K field of that command's word. -/
theorem build_countField_encode {r : OpcodeRow} (hr : r ∈ opcodeRows) {k : Nat} (hk : k < 64) :
    r.build (countField (encode (r.build k))).toNat = r.build k := by
  cases opcodeRows_shape hr with
  | whole i hbuild _ _ _ => rw [hbuild, hbuild]
  | counted _ _ hfields _ =>
    have hcount : countField (encode (r.build k)) = BitVec.ofNat 6 k :=
      (congrArg CommandFields.count (fieldsOf_packFields _)).trans (by rw [hfields]; rfl)
    rw [hcount, BitVec.toNat_ofNat, Nat.mod_eq_of_lt hk]

theorem exists_row_of_build_zero {i : Instr} (h : ∃ r ∈ opcodeRows, r.build 0 = i) :
    ∃ r ∈ opcodeRows, ∃ k < 64, r.build k = i := by
  obtain ⟨r, hr, rfl⟩ := h
  exact ⟨r, hr, 0, by decide, rfl⟩

theorem exists_row_of_build {r : OpcodeRow} (hr : r ∈ wordRows) {k : Nat} (hk : bitCountFits k = true) :
    ∃ r' ∈ opcodeRows, ∃ k' < 64, r'.build k' = r.build k :=
  ⟨r, by simp [opcodeRows, hr], k, of_decide_eq_true hk, rfl⟩

/-- Every well-formed command has its row (30_encoding.md R78, R79). -/
theorem exists_row {i : Instr} (hi : i.wellFormed = true) : ∃ r ∈ opcodeRows, ∃ k < 64, r.build k = i := by
  cases i with
  | uhashU32 k => exact exists_row_of_build (r := ⟨0x25, 0xFFFFC0FF, .uhashU32⟩) (by simp [wordRows]) hi
  | uhashS32 k => exact exists_row_of_build (r := ⟨0x65, 0xFFFFC0FF, .uhashS32⟩) (by simp [wordRows]) hi
  | uhashU64 k => exact exists_row_of_build (r := ⟨0x35, 0xFFFFC0FF, .uhashU64⟩) (by simp [wordRows]) hi
  | uhashS64 k => exact exists_row_of_build (r := ⟨0x75, 0xFFFFC0FF, .uhashS64⟩) (by simp [wordRows]) hi
  | _ => exact exists_row_of_build_zero (by decide)

/-- Two rows differ in a bit that both masks keep. -/
theorem opcodeRows_distinct :
    opcodeRows.Pairwise fun r r' => r.pattern &&& r'.mask ≠ r'.pattern &&& r.mask := by decide

/-- No word matches two rows. -/
theorem opcodeRows_disjoint (w : Word32) :
    opcodeRows.Pairwise fun r r' => ¬(r.matchesWord w = true ∧ r'.matchesWord w = true) := by
  refine opcodeRows_distinct.imp fun {r r'} hne ⟨h, h'⟩ => hne ?_
  rw [← of_decide_eq_true h, ← of_decide_eq_true h', BitVec.and_assoc, BitVec.and_assoc, BitVec.and_comm r.mask]

theorem eq_of_matchesWord {r r' : OpcodeRow} (hr : r ∈ opcodeRows) (hr' : r' ∈ opcodeRows) {w : Word32}
    (h : r.matchesWord w = true) (h' : r'.matchesWord w = true) : r = r' := by
  have : Std.Symm fun r r' : OpcodeRow => ¬(r.matchesWord w = true ∧ r'.matchesWord w = true) :=
    ⟨fun _ _ hne hswap => hne hswap.symm⟩
  by_contra hne
  exact (opcodeRows_disjoint w).forall hr hr' hne ⟨h, h'⟩

/-- `Decode` answers a command exactly where a row matches, and it is that row's command. -/
theorem decode_eq_ok_iff {w : Word32} {i : Instr} :
    decode w = .ok i ↔ ∃ r ∈ opcodeRows, r.matchesWord w = true ∧ r.build (countField w).toNat = i := by
  cases hfind : opcodeRows.find? (fun r => r.matchesWord w) with
  | none =>
    have hnone := List.find?_eq_none.1 hfind
    simp only [decode, hfind, reduceCtorEq, false_iff]
    rintro ⟨r, hr, hmatch, -⟩
    exact hnone r hr hmatch
  | some r =>
    have hr := List.mem_of_find?_eq_some hfind
    have hmatch := List.find?_some hfind
    simp only [decode, hfind, Except.ok.injEq]
    constructor
    · exact fun h => ⟨r, hr, hmatch, h⟩
    · rintro ⟨r', hr', hmatch', rfl⟩
      rw [eq_of_matchesWord hr hr' hmatch hmatch']

theorem decode_error_of_no_match {w : Word32} (h : ∀ r ∈ opcodeRows, r.matchesWord w = false) :
    ∃ e, decode w = .error e := by
  cases hd : decode w with
  | error e => exact ⟨e, rfl⟩
  | ok i =>
    obtain ⟨r, hr, hmatch, -⟩ := decode_eq_ok_iff.1 hd
    exact absurd hmatch (by simp [h r hr])

/-- The opcode map read through the encoder: the decoder and the encoder say the same of every word. -/
theorem decode_eq_ok_iff_encode {w : Word32} {i : Instr} :
    decode w = .ok i ↔ i.wellFormed = true ∧ encode i = w := by
  constructor
  · intro h
    obtain ⟨r, hr, hmatch, rfl⟩ := decode_eq_ok_iff.1 h
    exact ⟨build_wellFormed hr (countField w).isLt, (matchesWord_iff_encode hr).1 hmatch⟩
  · rintro ⟨hwf, rfl⟩
    obtain ⟨r, hr, k, hk, rfl⟩ := exists_row hwf
    have hbuild := build_countField_encode hr hk
    exact decode_eq_ok_iff.2 ⟨r, hr, (matchesWord_iff_encode hr).2 (congrArg encode hbuild), hbuild⟩

end Sys2Proof.Machine
end

section
/-! The round trips of the encoding (30_encoding.md R71, R79). -/

namespace Sys2Proof.Machine

/-- Settles O1, by the opcode map read through the encoder. -/
theorem decodeOfEncodeIsTheCommand : Obligations.DecodeOfEncodeIsTheCommand :=
  fun _ hwf => decode_eq_ok_iff_encode.2 ⟨hwf, rfl⟩

/-- Settles O2, by the opcode map read through the encoder. -/
theorem encodeOfDecodeIsTheWord : Obligations.EncodeOfDecodeIsTheWord :=
  fun _ _ h => decode_eq_ok_iff_encode.1 h

/-- Settles O5: each word is the encoding of its command, and so decodes to it. -/
theorem sampleWordsDecode : Obligations.SampleWordsDecode := by
  refine ⟨?_, ?_, ?_, ?_, ?_, ?_, ?_, ?_⟩ <;> exact decode_eq_ok_iff_encode.2 ⟨rfl, by decide⟩

end Sys2Proof.Machine
end

section
/-! The legal words (30_encoding.md R78): the rows of the table of combinations and the rows of the opcode map cover the
same words. -/

namespace Sys2Proof.Machine

open Laws.EncodingIsLegal in
/-- The laws of the single commands, put together. -/
theorem legalCombination_encode {i : Instr} (hwf : i.wellFormed = true) : legalCombination (encode i) = true := by
  cases i with
  | foldU8 => exact foldU8 hwf
  | foldS8 => exact foldS8 hwf
  | foldU16 => exact foldU16 hwf
  | foldS16 => exact foldS16 hwf
  | foldU32 => exact foldU32 hwf
  | foldS32 => exact foldS32 hwf
  | foldU64 => exact foldU64 hwf
  | foldS64 => exact foldS64 hwf
  | highbitU8 => exact highbitU8 hwf
  | highbitS8 => exact highbitS8 hwf
  | highbitU16 => exact highbitU16 hwf
  | highbitS16 => exact highbitS16 hwf
  | highbitU32 => exact highbitU32 hwf
  | highbitS32 => exact highbitS32 hwf
  | highbitU64 => exact highbitU64 hwf
  | highbitS64 => exact highbitS64 hwf
  | log2U32 => exact log2U32 hwf
  | popcntU32 => exact popcntU32 hwf
  | popcntS32 => exact popcntS32 hwf
  | uhashU32 k => exact uhashU32 k hwf
  | uhashS32 k => exact uhashS32 k hwf
  | uhashU64 k => exact uhashU64 k hwf
  | uhashS64 k => exact uhashS64 k hwf
  | swapU16 => exact swapU16 hwf
  | swapS16 => exact swapS16 hwf
  | swapU32 => exact swapU32 hwf
  | swapS32 => exact swapS32 hwf
  | swapU64 => exact swapU64 hwf
  | swapS64 => exact swapS64 hwf
  | writeU8 => exact writeU8 hwf
  | writeS8 => exact writeS8 hwf
  | writeU16 => exact writeU16 hwf
  | writeS16 => exact writeS16 hwf
  | writeU32 => exact writeU32 hwf
  | writeS32 => exact writeS32 hwf
  | writeU64 => exact writeU64 hwf
  | writeS64 => exact writeS64 hwf
  | writeF32 => exact writeF32 hwf
  | writeF64 => exact writeF64 hwf
  | readU8 => exact readU8 hwf
  | readS8 => exact readS8 hwf
  | readU16 => exact readU16 hwf
  | readS16 => exact readS16 hwf
  | readU32 => exact readU32 hwf
  | readS32 => exact readS32 hwf
  | readU64 => exact readU64 hwf
  | readS64 => exact readS64 hwf
  | readF32 => exact readF32 hwf
  | readF64 => exact readF64 hwf

/-- A row that leaves K free gives the command of every bit count. -/
theorem commandFields_build {r : OpcodeRow} (hr : r ∈ opcodeRows) (hmask : r.mask = 0xFFFFC0FF) (k : Nat) :
    commandFields (r.build k) = (commandFields (r.build 0)).withCount (BitVec.ofNat 6 k) := by
  cases opcodeRows_shape hr with
  | whole _ _ hmask' _ _ => exact absurd (hmask.symm.trans hmask') (by decide)
  | counted _ _ hfields _ => exact hfields k

/-- A row matches a word that has the fields of the row's command, where K is zero or the row leaves it free. -/
theorem exists_match_of_fields {w : Word32} (hres : reservedField w = 0)
    (h : ∃ r ∈ opcodeRows, (countField w = 0 ∨ r.mask = 0xFFFFC0FF) ∧
      commandFields (r.build 0) = (fieldsOf w).withCount 0) :
    ∃ r ∈ opcodeRows, r.matchesWord w = true := by
  obtain ⟨r, hr, hcount, hfields⟩ := h
  refine ⟨r, hr, (matchesWord_iff_encode hr).2 (packFields_eq_iff.2 ⟨hres, ?_⟩)⟩
  rcases hcount with hcount | hmask
  · rw [hcount]
    exact (congrArg (fieldsOf w).withCount hcount).trans hfields.symm
  · rw [commandFields_build hr hmask, hfields, BitVec.ofNat_toNat, BitVec.setWidth_eq]
    rfl

theorem exists_match_of_count_zero {w : Word32} (hres : reservedField w = 0) (hcount : countField w = 0)
    (h : ∃ r ∈ opcodeRows, commandFields (r.build 0) = ⟨opField w, widthField w, signedField w, floatField w, 0⟩) :
    ∃ r ∈ opcodeRows, r.matchesWord w = true := by
  obtain ⟨r, hr, hfields⟩ := h
  exact exists_match_of_fields hres ⟨r, hr, .inl hcount, hfields⟩

/-! The rows of R78 have rows of R79, by family: where a field is free, every value of it has a row. -/

theorem exists_row_of_any_type : ∀ op ∈ ([0x1, 0x2, 0x8, 0x9] : List (BitVec 4)),
    ∀ (width : BitVec 2) (signed : BitVec 1),
    ∃ r ∈ opcodeRows, commandFields (r.build 0) = ⟨op, width, signed, 0, 0⟩ := by decide

theorem exists_row_log2 : ∃ r ∈ opcodeRows, commandFields (r.build 0) = ⟨0x3, 2, 0, 0, 0⟩ := by decide

theorem exists_row_popcnt : ∀ signed : BitVec 1,
    ∃ r ∈ opcodeRows, commandFields (r.build 0) = ⟨0x4, 2, signed, 0, 0⟩ := by decide

theorem exists_row_uhash : ∀ width : BitVec 2, width = 2 ∨ width = 3 → ∀ signed : BitVec 1,
    ∃ r ∈ opcodeRows, r.mask = 0xFFFFC0FF ∧ commandFields (r.build 0) = ⟨0x5, width, signed, 0, 0⟩ := by decide

theorem exists_row_swap : ∀ width : BitVec 2, width ≠ 0 → ∀ signed : BitVec 1,
    ∃ r ∈ opcodeRows, commandFields (r.build 0) = ⟨0x6, width, signed, 0, 0⟩ := by decide

theorem exists_row_float : ∀ op ∈ ([0x8, 0x9] : List (BitVec 4)), ∀ width : BitVec 2, width = 2 ∨ width = 3 →
    ∃ r ∈ opcodeRows, commandFields (r.build 0) = ⟨op, width, 0, 1, 0⟩ := by decide

/-- FOLD, HIGHBIT, WRITE and READ take every width, signed or not. -/
theorem exists_match_of_any_type {w : Word32} (hres : reservedField w = 0) (hcount : countField w = 0)
    (hfloat : floatField w = 0) (hop : opField w ∈ ([0x1, 0x2, 0x8, 0x9] : List (BitVec 4))) :
    ∃ r ∈ opcodeRows, r.matchesWord w = true := by
  refine exists_match_of_count_zero hres hcount ?_
  rw [hfloat]
  exact exists_row_of_any_type _ hop _ _

/-- Each row of the table of R78 lies within the rows of the opcode map. -/
theorem exists_match_of_legal {w : Word32} (h : legalCombination w = true) :
    ∃ r ∈ opcodeRows, r.matchesWord w = true := by
  simp only [legalCombination, Bool.and_eq_true, Bool.or_eq_true, decide_eq_true_eq, and_assoc, or_assoc] at h
  obtain ⟨hres, hfold | hhighBit | hlog2 | hpopcnt | huhash | hswap | ⟨hop, hcount, hcodec⟩⟩ := h
  · obtain ⟨hop, hfloat, hcount⟩ := hfold
    exact exists_match_of_any_type hres hcount hfloat (by simp [hop])
  · obtain ⟨hop, hfloat, hcount⟩ := hhighBit
    exact exists_match_of_any_type hres hcount hfloat (by simp [hop])
  · obtain ⟨hop, hwidth, hsigned, hfloat, hcount⟩ := hlog2
    refine exists_match_of_count_zero hres hcount ?_
    rw [hop, hwidth, hsigned, hfloat]
    exact exists_row_log2
  · obtain ⟨hop, hwidth, hfloat, hcount⟩ := hpopcnt
    refine exists_match_of_count_zero hres hcount ?_
    rw [hop, hwidth, hfloat]
    exact exists_row_popcnt _
  · obtain ⟨hop, hwidth, hfloat⟩ := huhash
    obtain ⟨r, hr, hmask, hfields⟩ := exists_row_uhash _ hwidth (signedField w)
    refine exists_match_of_fields hres ⟨r, hr, .inr hmask, hfields.trans ?_⟩
    rw [fieldsOf, CommandFields.withCount, hop, hfloat]
  · obtain ⟨hop, hwidth, hfloat, hcount⟩ := hswap
    refine exists_match_of_count_zero hres hcount ?_
    rw [hop, hfloat]
    exact exists_row_swap _ hwidth _
  · rcases BitVec.eq_zero_or_eq_one (floatField w) with hfloat | hfloat
    · exact exists_match_of_any_type hres hcount hfloat (by rcases hop with hop | hop <;> simp [hop])
    · obtain ⟨hwidth, hsigned⟩ := hcodec.resolve_left (by simp [hfloat])
      refine exists_match_of_count_zero hres hcount ?_
      rw [hsigned, hfloat]
      exact exists_row_float _ (by simpa using hop) _ hwidth

theorem legalCombination_iff_match {w : Word32} :
    legalCombination w = true ↔ ∃ r ∈ opcodeRows, r.matchesWord w = true := by
  refine ⟨exists_match_of_legal, ?_⟩
  rintro ⟨r, hr, hmatch⟩
  rw [← (matchesWord_iff_encode hr).1 hmatch]
  exact legalCombination_encode (build_wellFormed hr (countField w).isLt)

/-- Settles O3, by way of the rows: a word decodes where a row matches, and a row matches where the fields are legal. -/
theorem legalWordsAreTheCombinations : Obligations.LegalWordsAreTheCombinations := by
  intro w
  rw [legalCombination_iff_match]
  constructor
  · rintro ⟨i, hi⟩
    obtain ⟨r, hr, hmatch, -⟩ := decode_eq_ok_iff.1 hi
    exact ⟨r, hr, hmatch⟩
  · rintro ⟨r, hr, hmatch⟩
    exact ⟨_, decode_eq_ok_iff.2 ⟨r, hr, hmatch, rfl⟩⟩

/-- At most one element passes a test that no two elements pass together. -/
theorem length_filter_le_one {α : Type} {p : α → Bool} {l : List α}
    (h : l.Pairwise fun a b => ¬(p a = true ∧ p b = true)) : (l.filter p).length ≤ 1 := by
  have hpair := h.filter p
  match hf : l.filter p with
  | [] => simp
  | [_] => simp
  | a :: b :: rest =>
    have hpass : ∀ x ∈ a :: b :: rest, p x = true := fun x hx => List.of_mem_filter (hf ▸ hx)
    rw [hf, List.pairwise_cons] at hpair
    exact absurd ⟨hpass a (by simp), hpass b (by simp)⟩ (hpair.1 b (by simp))

theorem length_matching_rows (w : Word32) :
    (opcodeRows.filter (fun r => r.matchesWord w)).length = if legalCombination w then 1 else 0 := by
  have hle := length_filter_le_one (opcodeRows_disjoint w)
  have hpos := List.length_filter_pos_iff (l := opcodeRows) (p := fun r => r.matchesWord w)
  rw [← legalCombination_iff_match] at hpos
  split <;> grind

/-- Settles O4: the rows exclude each other, a legal word has one, and the last three clauses read the table. -/
theorem exactlyOneRowMatches : Obligations.ExactlyOneRowMatches := by
  refine ⟨length_matching_rows, fun r hr w hmatch => ?_, fun w hnone => ?_, by decide, by decide, by decide⟩
  · exact decode_eq_ok_iff.2 ⟨r, hr, decide_eq_true hmatch, rfl⟩
  · exact decode_error_of_no_match fun r hr => decide_eq_false (hnone r hr)

end Sys2Proof.Machine
end

section
/-! The assembler (30_encoding.md R82): it searches the well-formed commands, and no two of them have the same
spelling. -/

namespace Sys2Proof.Machine

theorem mem_rowCommands {r : OpcodeRow} (hr : r ∈ opcodeRows) {i : Instr} :
    i ∈ rowCommands r ↔ ∃ k < 64, r.build k = i := by
  cases opcodeRows_shape hr with
  | whole j hbuild hmask _ _ =>
    simp only [rowCommands, if_pos hmask, hbuild, List.mem_singleton, eq_comm]
    exact ⟨fun h => ⟨0, by decide, h⟩, fun ⟨_, _, h⟩ => h⟩
  | counted hmask _ _ _ =>
    have hne : r.mask ≠ 0xFFFFFFFF := by rw [hmask]; decide
    simp only [rowCommands, if_neg hne, List.mem_map, List.mem_range]

/-- The commands that the assembler searches are the well-formed ones. -/
theorem mem_flatMap_rowCommands {i : Instr} : i ∈ opcodeRows.flatMap rowCommands ↔ i.wellFormed = true := by
  rw [List.mem_flatMap]
  constructor
  · rintro ⟨r, hr, hi⟩
    obtain ⟨k, hk, rfl⟩ := (mem_rowCommands hr).1 hi
    exact build_wellFormed hr hk
  · intro hwf
    obtain ⟨r, hr, hi⟩ := exists_row hwf
    exact ⟨r, hr, (mem_rowCommands hr).2 hi⟩

/-- No two rows have the same mnemonic (30_encoding.md R82). -/
theorem mnemonics_distinct :
    opcodeRows.Pairwise fun r r' => mnemonicOf (r.build 0) ≠ mnemonicOf (r'.build 0) := by decide

theorem space_notMem_mnemonic : ∀ r ∈ opcodeRows, ' ' ∉ (mnemonicOf (r.build 0)).toList := by decide

/-- What follows the mnemonic: for UHASH one space and the bit count. -/
def operandText : Option Nat → String
  | none => ""
  | some k => " " ++ toString k

theorem spelling_eq (i : Instr) : spelling i = mnemonicOf i ++ operandText (bitCount i) := by
  cases i <;> simp [spelling, operandText, bitCount, String.append_assoc]

theorem space_notMem_toString (k : Nat) : ' ' ∉ (toString k).toList := by
  intro h
  rw [Nat.toString_eq_ofList_toDigits, String.toList_ofList] at h
  exact absurd (Nat.isDigit_of_mem_toDigits (by decide) (by decide) h) (by decide)

theorem toList_append_operandText (m : String) (k : Nat) :
    (m ++ operandText (some k)).toList = m.toList ++ ' ' :: (toString k).toList := by
  simp [operandText]

theorem ne_append_operandText {m m' : String} (hm : ' ' ∉ m.toList) (k : Nat) : m ≠ m' ++ operandText (some k) := by
  rintro rfl
  simp [operandText] at hm

/-- The first space of a spelling ends the mnemonic. -/
theorem append_operandText_inj {m m' : String} {a b : Option Nat} (hm : ' ' ∉ m.toList) (hm' : ' ' ∉ m'.toList)
    (h : m ++ operandText a = m' ++ operandText b) : m = m' ∧ a = b := by
  match a, b with
  | none, none => simpa [operandText] using h
  | none, some k => exact absurd (by simpa [operandText] using h) (ne_append_operandText (m' := m') hm k)
  | some k, none => exact absurd (by simpa [operandText] using h.symm) (ne_append_operandText (m' := m) hm' k)
  | some k, some k' =>
    have hchars := congrArg String.toList h
    rw [toList_append_operandText, toList_append_operandText,
      List.append_cons_inj_of_notMem hm (space_notMem_toString k), String.toList_inj, String.toList_inj] at hchars
    obtain ⟨hmnemonic, -, hdigits⟩ := hchars
    exact ⟨hmnemonic, congrArg some (Nat.repr_injective hdigits)⟩

/-- The bit count is no part of the mnemonic. -/
theorem mnemonicOf_build {r : OpcodeRow} (hr : r ∈ opcodeRows) (k : Nat) :
    mnemonicOf (r.build k) = mnemonicOf (r.build 0) := by
  cases opcodeRows_shape hr with
  | whole i hbuild _ _ _ => rw [hbuild, hbuild]
  | counted _ _ hfields _ =>
    rw [mnemonicOf, hfields]
    rfl

theorem build_eq_of_bitCount_eq {r : OpcodeRow} (hr : r ∈ opcodeRows) {k k' : Nat}
    (h : bitCount (r.build k) = bitCount (r.build k')) : r.build k = r.build k' := by
  cases opcodeRows_shape hr with
  | whole i hbuild _ _ _ => rw [hbuild, hbuild]
  | counted _ _ _ hbits =>
    rw [hbits, hbits, Option.some.injEq] at h
    rw [h]

theorem row_eq_of_mnemonic_eq {r r' : OpcodeRow} (hr : r ∈ opcodeRows) (hr' : r' ∈ opcodeRows)
    (h : mnemonicOf (r.build 0) = mnemonicOf (r'.build 0)) : r = r' := by
  have : Std.Symm fun r r' : OpcodeRow => mnemonicOf (r.build 0) ≠ mnemonicOf (r'.build 0) := ⟨fun _ _ => Ne.symm⟩
  by_contra hne
  exact mnemonics_distinct.forall hr hr' hne h

/-- A spelling names one well-formed command. -/
theorem eq_of_spelling_eq {i j : Instr} (hi : i.wellFormed = true) (hj : j.wellFormed = true)
    (h : spelling i = spelling j) : i = j := by
  obtain ⟨r, hr, k, -, rfl⟩ := exists_row hi
  obtain ⟨r', hr', k', -, rfl⟩ := exists_row hj
  rw [spelling_eq, spelling_eq, mnemonicOf_build hr, mnemonicOf_build hr'] at h
  obtain ⟨hmnemonic, hbits⟩ := append_operandText_inj (space_notMem_mnemonic r hr) (space_notMem_mnemonic r' hr') h
  obtain rfl := row_eq_of_mnemonic_eq hr hr' hmnemonic
  exact build_eq_of_bitCount_eq hr hbits

/-- What the assembler's search finds. -/
theorem wellFormed_and_spelling_of_find {text : String} {i : Instr}
    (h : (opcodeRows.flatMap rowCommands).find? (fun j => spelling j == text) = some i) :
    i.wellFormed = true ∧ spelling i = text := by
  have htext := List.find?_some h
  exact ⟨mem_flatMap_rowCommands.1 (List.mem_of_find?_eq_some h), eq_of_beq htext⟩

/-- Settles O45: the search is over the well-formed commands, and what it finds is the one that is so spelled. -/
theorem assemblerTakesExactlyTheSpellings : Obligations.AssemblerTakesExactlyTheSpellings := by
  intro text w
  rw [assemble, Option.map_eq_some_iff]
  constructor
  · rintro ⟨i, hfind, hw⟩
    obtain ⟨hwf, ht⟩ := wellFormed_and_spelling_of_find hfind
    exact ⟨i, hwf, ht, hw⟩
  · rintro ⟨i, hwf, rfl, hw⟩
    have hfound : ((opcodeRows.flatMap rowCommands).find? (fun j => spelling j == spelling i)).isSome :=
      List.find?_isSome.2 ⟨i, mem_flatMap_rowCommands.2 hwf, beq_self_eq_true _⟩
    obtain ⟨j, hfind⟩ := Option.isSome_iff_exists.1 hfound
    obtain ⟨hj, hsame⟩ := wellFormed_and_spelling_of_find hfind
    obtain rfl := eq_of_spelling_eq hj hwf hsame
    exact ⟨j, hfind, hw⟩

theorem assemble_spelling {i : Instr} {text : String} {w : Word32} (hwf : i.wellFormed = true)
    (ht : spelling i = text) (hw : encode i = w) : assemble text = some w :=
  (assemblerTakesExactlyTheSpellings text w).2 ⟨i, hwf, ht, hw⟩

/-- Settles O6: nine texts spell commands, and a search of all spellings finds none of the other three. -/
theorem mnemonicsAssemble : Obligations.MnemonicsAssemble := by
  refine ⟨assemble_spelling (i := .foldU8) rfl ?_ ?_, assemble_spelling (i := .foldS64) rfl ?_ ?_,
    assemble_spelling (i := .log2U32) rfl ?_ ?_, assemble_spelling (i := .popcntS32) rfl ?_ ?_,
    assemble_spelling (i := .uhashU32 16) rfl ?_ ?_, assemble_spelling (i := .swapU16) rfl ?_ ?_,
    assemble_spelling (i := .writeF32) rfl ?_ ?_, assemble_spelling (i := .readS8) rfl ?_ ?_,
    assemble_spelling (i := .uhashU32 33) rfl ?_ ?_, ?_, ?_, ?_⟩ <;> decide

end Sys2Proof.Machine
end

section
/-! Host programs and the step on a write to CMD (30_encoding.md R80, R83). -/

namespace Sys2Proof.Machine

/-- Settles O7: each form and each pseudo-instruction is an equation of `expandLine`. -/
theorem hostLinesExpand : Obligations.HostLinesExpand :=
  fun _ => ⟨fun _ _ => rfl, fun _ => rfl, fun _ _ => rfl, fun _ => rfl, fun _ => rfl, rfl, fun _ _ => rfl,
    fun _ _ _ _ _ => rfl, fun _ _ _ => rfl, fun _ _ => rfl⟩

theorem faultBit_afterReply (r : Reply) (rest : List HostEvent) (s : State) :
    faultBit (afterReply r rest s) = faultBit s := rfl

theorem commandWrite_of_faulted {w : Word32} {s : State} (hf : faultBit s = true) : commandWrite w s = .next s :=
  if_pos hf

theorem commandWrite_of_decode_ok {w : Word32} {s : State} {i : Instr} (hf : faultBit s = false)
    (hd : decode w = .ok i) : commandWrite w s = exec i (latchCommand w s) := by
  simp [commandWrite, hf, hd]

theorem commandWrite_of_decode_error {w : Word32} {s : State} {e : DecodeReject} (hf : faultBit s = false)
    (hd : decode w = .error e) : commandWrite w s = .next (raiseFault .illegal (latchCommand w s)) := by
  simp [commandWrite, hf, hd]

/-- Settles O8, by the three cases of a write to CMD. -/
theorem commandWriteExecutesTheWord : Obligations.CommandWriteExecutesTheWord := by
  intro s w rest hp
  rw [step_write_cmd hp]
  refine ⟨fun hf => ?ignored, fun hf i hd => ?executed, fun hf e hd => ?refused⟩
  case ignored => exact commandWrite_of_faulted ((faultBit_afterReply ..).trans hf)
  case executed => exact commandWrite_of_decode_ok ((faultBit_afterReply ..).trans hf) hd
  case refused => exact commandWrite_of_decode_error ((faultBit_afterReply ..).trans hf) hd

end Sys2Proof.Machine
end

section
/-! The fold loop and the highest set bit at every width (40_bitops.md R100, R101). A bit of the folded value is set where
the operand is at least as large as that bit, so the closed forms are read off bit by bit. -/

namespace Sys2Proof.Machine

/-- Some bit of `x` from `i` on is set exactly where `x` is at least `2^i`. -/
theorem exists_testBit_iff_two_pow_le {x i : Nat} : (∃ j, i ≤ j ∧ x.testBit j = true) ↔ 2 ^ i ≤ x := by
  constructor
  · rintro ⟨j, hij, hj⟩
    exact (Nat.pow_le_pow_right (by decide) hij).trans (Nat.ge_two_pow_of_testBit hj)
  · exact Nat.exists_ge_and_testBit_of_ge_two_pow

/-- `y` is `x` ORed with its right shifts by less than `sh`: what the loop of R100 holds when it has reached `sh`. -/
def SpreadBelow {n : Nat} (x : BitVec n) (sh : Nat) (y : BitVec n) : Prop :=
  ∀ i, y.getLsbD i = true ↔ ∃ j, i ≤ j ∧ j < i + sh ∧ x.getLsbD j = true

theorem SpreadBelow.one {n : Nat} (x : BitVec n) : SpreadBelow x 1 x := by
  intro i
  constructor
  · exact fun h => ⟨i, by omega, by omega, h⟩
  · rintro ⟨j, hij, hj, h⟩
    rwa [show i = j by omega]

/-- One turn of the loop doubles the spread. -/
theorem SpreadBelow.double {n sh : Nat} {x y : BitVec n} (h : SpreadBelow x sh y) :
    SpreadBelow x (2 * sh) (y ||| y >>> sh) := by
  intro i
  rw [BitVec.getLsbD_or, BitVec.getLsbD_ushiftRight, Bool.or_eq_true, h i, h (sh + i)]
  constructor
  · rintro (⟨j, hij, hj, hx⟩ | ⟨j, hij, hj, hx⟩)
    · exact ⟨j, by omega, by omega, hx⟩
    · exact ⟨j, by omega, by omega, hx⟩
  · rintro ⟨j, hij, hj, hx⟩
    rcases Nat.lt_or_ge j (i + sh) with hlow | hhigh
    · exact .inl ⟨j, hij, hlow, hx⟩
    · exact .inr ⟨j, by omega, by omega, hx⟩

/-- A spread over the whole width reaches every higher bit. -/
theorem SpreadBelow.getLsbD_of_le {n sh : Nat} {x y : BitVec n} (h : SpreadBelow x sh y) (hn : n ≤ sh) (i : Nat) :
    y.getLsbD i = true ↔ 2 ^ i ≤ x.toNat := by
  rw [h i, ← exists_testBit_iff_two_pow_le]
  constructor
  · rintro ⟨j, hij, -, hx⟩
    exact ⟨j, hij, hx⟩
  · rintro ⟨j, hij, hx⟩
    have hj : j < n := BitVec.lt_of_getLsbD hx
    exact ⟨j, hij, by omega, hx⟩

/-- The loop from any turn on. A turn raises the shift, so turns that make up for what the shift lacks are enough. -/
theorem getLsbD_foldLoop {n : Nat} {x : BitVec n} (fuel sh : Nat) (y : BitVec n) (hsh : 0 < sh) (hfuel : n ≤ sh + fuel)
    (h : SpreadBelow x sh y) (i : Nat) : (foldLoop fuel sh y).getLsbD i = true ↔ 2 ^ i ≤ x.toNat := by
  induction fuel generalizing sh y with
  | zero => exact h.getLsbD_of_le hfuel i
  | succ fuel ih =>
    rw [foldLoop]
    split
    · exact ih _ _ (by omega) (by omega) h.double
    · exact h.getLsbD_of_le (by omega) i

theorem getLsbD_fold {n : Nat} (x : BitVec n) (i : Nat) : (fold x).getLsbD i = decide (2 ^ i ≤ x.toNat) := by
  rw [Bool.eq_iff_iff, decide_eq_true_iff]
  exact getLsbD_foldLoop n 1 x (by decide) (by omega) (.one x) i

theorem testBit_foldValue (x i : Nat) : (foldValue x).testBit i = decide (2 ^ i ≤ x) := by
  unfold foldValue
  split
  · next hx => simp [hx]
  · next hx => simp only [Nat.testBit_two_pow_sub_one, ← Nat.le_log2 hx, Nat.lt_succ_iff]

theorem fold_toNat {n : Nat} (x : BitVec n) : (fold x).toNat = foldValue x.toNat :=
  Nat.eq_of_testBit_eq fun i => by rw [BitVec.testBit_toNat, getLsbD_fold, testBit_foldValue]

/-- The highest set bit is the one bit of `x` whose power is at most `x` while the next is not. -/
theorem testBit_highBitValue (x i : Nat) :
    (highBitValue x).testBit i = (decide (2 ^ i ≤ x) ^^ decide (2 ^ (i + 1) ≤ x)) := by
  unfold highBitValue
  split
  · next hx => simp [hx]
  · next hx =>
    simp only [Nat.testBit_two_pow, ← Nat.le_log2 hx]
    grind

theorem highBit_toNat {n : Nat} (x : BitVec n) : (highBit x).toNat = highBitValue x.toNat :=
  Nat.eq_of_testBit_eq fun i => by
    rw [BitVec.testBit_toNat, highBit, BitVec.getLsbD_xor, BitVec.getLsbD_ushiftRight, getLsbD_fold, getLsbD_fold,
      testBit_highBitValue, Nat.add_comm]

/-- A shift by the width or more gives 0, so it adds nothing to the folded value. -/
theorem or_shiftRight_of_le {n sh : Nat} (y : BitVec n) (h : n ≤ sh) : y ||| y >>> sh = y := by
  rw [BitVec.ushiftRight_eq_zero h, BitVec.or_zero]

/-- What R100 and R101 derive from the loop, at any width. -/
theorem fold_and_highBit_laws {n : Nat} (x : BitVec n) :
    (fold x).toNat = foldValue x.toNat ∧ (∀ sh, n ≤ sh → fold x ||| fold x >>> sh = fold x) ∧
      highBit x = fold x ^^^ fold x >>> 1 ∧ (highBit x).toNat = highBitValue x.toNat :=
  ⟨fold_toNat x, fun _ => or_shiftRight_of_le _, rfl, highBit_toNat x⟩

/-- Settles O21: at each width the loop unrolls to the shifts named, and the closed forms hold at every width. -/
theorem foldAndHighBitFunctions : Obligations.FoldAndHighBitFunctions :=
  ⟨fun x => ⟨rfl, fold_and_highBit_laws x⟩, fun x => ⟨rfl, fold_and_highBit_laws x⟩,
    fun x => ⟨rfl, fold_and_highBit_laws x⟩, fun x => ⟨rfl, fold_and_highBit_laws x⟩⟩

end Sys2Proof.Machine
end

section
/-! The BitOps commands that take OPA alone (40_bitops.md R102, R103, R106 to R124). -/

namespace Sys2Proof.Machine

theorem decode_of_encode {i : Instr} {w : Word32} (hwf : i.wellFormed = true) (h : encode i = w) : decode w = .ok i :=
  decode_eq_ok_iff_encode.2 ⟨hwf, h⟩

theorem operandA_toNat (n : Nat) (s : State) : (operandA n s).toNat = s.opa.toNat % 2 ^ n :=
  BitVec.toNat_setWidth ..

/-- A command that writes the widened `r` changes RESULT alone (40_bitops.md R105). -/
theorem exec_eq_next_of_value {i : Instr} {s : State} {n : Nat} {r v : BitVec n} (widen : BitVec n → Word64)
    (hx : exec i s = writeResult (widen r) s) (hr : r = v) : exec i s = .next { s with result := widen v } := by
  rw [hx, hr]
  rfl

theorem eq_ofNat_of_toNat {n x : Nat} {r : BitVec n} (h : r.toNat = x) : r = BitVec.ofNat n x := by
  rw [← h, BitVec.ofNat_toNat, BitVec.setWidth_eq]

theorem fold_operandA (n : Nat) (s : State) :
    fold (operandA n s) = BitVec.ofNat n (foldValue (s.opa.toNat % 2 ^ n)) :=
  eq_ofNat_of_toNat (by rw [fold_toNat, operandA_toNat])

theorem highBit_operandA (n : Nat) (s : State) :
    highBit (operandA n s) = BitVec.ofNat n (highBitValue (s.opa.toNat % 2 ^ n)) :=
  eq_ofNat_of_toNat (by rw [highBit_toNat, operandA_toNat])

/-- Settles O22: each type widens the closed form of the fold. -/
theorem foldCommands : Obligations.FoldCommands := by
  refine ⟨by and_intros <;> exact decode_of_encode rfl rfl, fun s => ⟨?u8, ?s8, ?u16, ?s16, ?u32, ?s32, ?u64, ?s64⟩⟩
  case u8 => exact exec_eq_next_of_value widenUnsigned rfl (fold_operandA 8 s)
  case s8 => exact exec_eq_next_of_value widenSigned rfl (fold_operandA 8 s)
  case u16 => exact exec_eq_next_of_value widenUnsigned rfl (fold_operandA 16 s)
  case s16 => exact exec_eq_next_of_value widenSigned rfl (fold_operandA 16 s)
  case u32 => exact exec_eq_next_of_value widenUnsigned rfl (fold_operandA 32 s)
  case s32 => exact exec_eq_next_of_value widenSigned rfl (fold_operandA 32 s)
  case u64 => exact exec_eq_next_of_value widenUnsigned rfl (fold_operandA 64 s)
  case s64 => exact exec_eq_next_of_value widenSigned rfl (fold_operandA 64 s)

/-- Settles O23: each type widens the closed form of the highest bit. -/
theorem highBitCommands : Obligations.HighBitCommands := by
  refine ⟨by and_intros <;> exact decode_of_encode rfl rfl, fun s => ⟨?u8, ?s8, ?u16, ?s16, ?u32, ?s32, ?u64, ?s64⟩⟩
  case u8 => exact exec_eq_next_of_value widenUnsigned rfl (highBit_operandA 8 s)
  case s8 => exact exec_eq_next_of_value widenSigned rfl (highBit_operandA 8 s)
  case u16 => exact exec_eq_next_of_value widenUnsigned rfl (highBit_operandA 16 s)
  case s16 => exact exec_eq_next_of_value widenSigned rfl (highBit_operandA 16 s)
  case u32 => exact exec_eq_next_of_value widenUnsigned rfl (highBit_operandA 32 s)
  case s32 => exact exec_eq_next_of_value widenSigned rfl (highBit_operandA 32 s)
  case u64 => exact exec_eq_next_of_value widenUnsigned rfl (highBit_operandA 64 s)
  case s64 => exact exec_eq_next_of_value widenSigned rfl (highBit_operandA 64 s)

/-- `log2_32` (R102): the folded value is 0, or `2^(k+1) - 1` for the index `k` of the highest set bit, and the ROM holds
`k` at its index. -/
theorem log2_eq_ofNat (x : Word32) : log2 x = BitVec.ofNat 5 (Nat.log2 x.toNat) := by
  have hfold : fold x = BitVec.ofNat 32 (foldValue x.toNat) := eq_ofNat_of_toNat (fold_toNat x)
  by_cases hx : x.toNat = 0
  · rw [log2, hfold, hx]
    decide
  · have hk : Nat.log2 x.toNat < 32 := (Nat.log2_lt hx).2 x.isLt
    rw [log2, hfold, foldValue, if_neg hx]
    exact lut_getD_foldedIndex ⟨_, hk⟩

/-- Settles O24: the five bits of the ROM entry hold the whole logarithm. -/
theorem log2Command : Obligations.Log2Command := by
  refine ⟨decode_of_encode rfl rfl, fun s => ?_⟩
  have hlt : Nat.log2 (s.opa.toNat % 2 ^ 32) < 2 ^ 5 := by
    by_cases hx : s.opa.toNat % 2 ^ 32 = 0
    · rw [hx]; decide
    · exact (Nat.log2_lt hx).2 (Nat.mod_lt _ (by decide))
  have hval : widenUnsigned (log2 (operandA 32 s)) = BitVec.ofNat 64 (Nat.log2 (s.opa.toNat % 2 ^ 32)) := by
    rw [log2_eq_ofNat, operandA_toNat, widenUnsigned_ofNat, Nat.mod_eq_of_lt hlt]
  exact exec_eq_next_of_value id rfl hval

theorem bitsSetBelow_eq_length {n : Nat} (x : BitVec n) (k : Nat) :
    bitsSetBelow x k = ((List.range k).filter x.getLsbD).length := by
  induction k with
  | zero => rfl
  | succ k ih =>
    rw [bitsSetBelow, ih, List.range_succ, List.filter_append, List.length_append]
    cases hk : x.getLsbD k <;> simp [hk]

theorem setBits32_le (x : Nat) : setBits32 x ≤ 32 :=
  (List.length_filter_le ..).trans_eq List.length_range

theorem popCount_operandA (s : State) : popCount (operandA 32 s) = BitVec.ofNat 32 (setBits32 s.opa.toNat) := by
  have hbits : (List.range 32).filter (operandA 32 s).getLsbD = (List.range 32).filter s.opa.toNat.testBit := by
    refine List.filter_congr fun i hi => ?_
    rw [operandA, BitVec.getLsbD_setWidth, decide_eq_true (List.mem_range.1 hi), Bool.true_and, BitVec.testBit_toNat]
  rw [popCount, bitsSetBelow_eq_length, hbits]
  rfl

/-- The sign extension of a value below half the range is its zero extension. -/
theorem widenSigned_ofNat_of_lt {x : Nat} (h : x < 2 ^ 31) :
    widenSigned (BitVec.ofNat 32 x) = widenUnsigned (BitVec.ofNat 32 x) := by
  refine BitVec.signExtend_eq_setWidth_of_msb_false ?_
  rw [BitVec.msb_eq_false_iff_two_mul_lt, BitVec.toNat_ofNat]
  omega

/-- Settles O26: the count is at most 32, so both signs widen it alike. -/
theorem popcountCommands : Obligations.PopcountCommands := by
  refine ⟨⟨decode_of_encode rfl rfl, decode_of_encode rfl rfl⟩, fun s => ?_⟩
  have hle := setBits32_le s.opa.toNat
  have hunsigned : widenUnsigned (popCount (operandA 32 s)) = BitVec.ofNat 64 (setBits32 s.opa.toNat) := by
    rw [popCount_operandA, widenUnsigned_ofNat, Nat.mod_eq_of_lt (by omega)]
  have hsigned : widenSigned (popCount (operandA 32 s)) = BitVec.ofNat 64 (setBits32 s.opa.toNat) := by
    rw [← hunsigned, popCount_operandA, widenSigned_ofNat_of_lt (by omega)]
  exact ⟨exec_eq_next_of_value id rfl hunsigned, exec_eq_next_of_value id rfl hsigned⟩

end Sys2Proof.Machine
end

section
/-! UHASH (40_bitops.md R104, R125 to R128). -/

namespace Sys2Proof.Machine

theorem encode_eq_or_count (i : Instr) :
    encode i = packFields ((commandFields i).withCount 0) ||| (commandFields i).count.setWidth 32 <<< 8 := by
  simp [encode, packFields, CommandFields.withCount]

/-- A UHASH row decodes its pattern with a bit count put into the K field (30_encoding.md R76, R79). -/
theorem decode_pattern_or_count {r : OpcodeRow} (hr : r ∈ wordRows) (hmask : r.mask = 0xFFFFC0FF) {k : Nat}
    (hk : k < 64) : decode (r.pattern ||| BitVec.ofNat 32 k <<< 8) = .ok (r.build k) := by
  have hmem : r ∈ opcodeRows := by simp [opcodeRows, hr]
  refine decode_of_encode (build_wellFormed hmem hk) ?_
  cases wordRows_shape r hr with
  | whole i _ hwhole _ _ => exact absurd (hwhole.symm.trans hmask) (by decide)
  | counted _ hpattern hfields _ =>
    have hzero : (commandFields (r.build 0)).withCount 0 = commandFields (r.build 0) := (hfields 0).symm
    have hcount : (BitVec.ofNat 6 k).setWidth 32 = BitVec.ofNat 32 k :=
      eq_ofNat_of_toNat (by simp only [BitVec.toNat_setWidth, BitVec.toNat_ofNat]; omega)
    calc encode (r.build k)
        = packFields ((commandFields (r.build 0)).withCount 0) ||| (BitVec.ofNat 6 k).setWidth 32 <<< 8 := by
          rw [encode_eq_or_count, hfields k]; rfl
      _ = r.pattern ||| BitVec.ofNat 32 k <<< 8 := by rw [hzero, hcount, hpattern, encode]

theorem hash32_toNat (v a b : Word32) (k : Nat) : (hash32 v a b k).toNat = hash32Value v.toNat a.toNat b.toNat k := by
  simp [hash32, hash32Value, Nat.shiftRight_eq_div_pow]

/-- The sum is below 2^64, so its high word is its quotient by 2^32. -/
theorem hash64_toNat (v a b : Word64) (k : Nat) : (hash64 v a b k).toNat = hash64Value v.toNat a.toNat b.toNat k := by
  have hsum : (a * v + b).toNat = (a.toNat * v.toNat + b.toNat) % 2 ^ 64 := by simp
  have hhigh : (a.toNat * v.toNat + b.toNat) % 2 ^ 64 / 2 ^ 32 < 2 ^ 32 :=
    Nat.div_lt_of_lt_mul (Nat.mod_lt _ (by decide))
  rw [hash64, hash64Value, BitVec.toNat_ushiftRight, BitVec.toNat_or, BitVec.toNat_setWidth, BitVec.toNat_setWidth,
    BitVec.toNat_ushiftRight, hsum, Nat.shiftRight_eq_div_pow, Nat.shiftRight_eq_div_pow, Nat.mod_eq_of_lt hhigh]

/-- A hash of up to 32 bits is zero-extended into RESULT, and nothing else changes. -/
theorem exec_eq_next_of_hash {i : Instr} {s : State} {k x : Nat} {h : Word32} (hx : exec i s = hashCommand k h s)
    (hk : k ≤ 32) (hh : h.toNat = x) : exec i s = .next { s with result := BitVec.ofNat 64 x } := by
  rw [hx, hashCommand_of_le hk, ← hh, BitVec.ofNat_toNat]
  rfl

/-- The E_RANGE latch (60_exceptions.md R202, R206). -/
theorem exec_eq_next_of_hash_range {i : Instr} {s : State} {k : Nat} {h : Word32} (hx : exec i s = hashCommand k h s)
    (hk : 32 < k) : exec i s = .next { s with status := 0x21, faultCmd := s.cmd } := by
  rw [hx, hashCommand_of_gt hk]
  rfl

theorem hash32_operands_toNat (s : State) (k : Nat) :
    (hash32 (operandA 32 s) (operandB 32 s) (operandC 32 s) k).toNat =
      hash32Value (s.opa.toNat % 2 ^ 32) (s.opb.toNat % 2 ^ 32) (s.opc.toNat % 2 ^ 32) k := by
  rw [hash32_toNat]
  simp only [operandA, operandB, operandC, BitVec.toNat_setWidth]

theorem hash64_operands_toNat (s : State) (k : Nat) :
    (hash64 (operandA 64 s) (operandB 64 s) (operandC 64 s) k).toNat =
      hash64Value s.opa.toNat s.opb.toNat s.opc.toNat k := by
  rw [hash64_toNat]
  simp only [operandA, operandB, operandC, BitVec.setWidth_eq]

/-- Settles O27: the words from the UHASH rows, then the two outcomes of a hash command. -/
theorem hashCommands : Obligations.HashCommands := by
  refine ⟨fun k hk => ?decoded, fun s k hk => ?hashed, fun s k hk _ => ?range⟩
  case decoded =>
    exact ⟨decode_pattern_or_count (r := ⟨0x25, 0xFFFFC0FF, .uhashU32⟩) (by simp [wordRows]) rfl hk,
      decode_pattern_or_count (r := ⟨0x65, 0xFFFFC0FF, .uhashS32⟩) (by simp [wordRows]) rfl hk,
      decode_pattern_or_count (r := ⟨0x35, 0xFFFFC0FF, .uhashU64⟩) (by simp [wordRows]) rfl hk,
      decode_pattern_or_count (r := ⟨0x75, 0xFFFFC0FF, .uhashS64⟩) (by simp [wordRows]) rfl hk⟩
  case hashed =>
    have h32 := hash32_operands_toNat s k
    have h64 := hash64_operands_toNat s k
    exact ⟨exec_eq_next_of_hash rfl hk h32, exec_eq_next_of_hash rfl hk h32, exec_eq_next_of_hash rfl hk h64,
      exec_eq_next_of_hash rfl hk h64⟩
  case range =>
    exact ⟨exec_eq_next_of_hash_range rfl hk, exec_eq_next_of_hash_range rfl hk, exec_eq_next_of_hash_range rfl hk,
      exec_eq_next_of_hash_range rfl hk⟩

/-- The top `k` bits of a 32-bit word. -/
theorem shiftRight_toNat_lt_two_pow (w : Word32) {k : Nat} (hk : k ≤ 32) : (w >>> (32 - k)).toNat < 2 ^ k := by
  rw [BitVec.toNat_ushiftRight, Nat.shiftRight_eq_div_pow]
  refine Nat.div_lt_of_lt_mul ?_
  rw [← Nat.pow_add, Nat.sub_add_cancel hk]
  exact w.isLt

theorem exec_result_lt_of_hash {i : Instr} {s : State} {k : Nat} {w : Word32}
    (hx : exec i s = hashCommand k (w >>> (32 - k)) s) (hk : k ≤ 32) :
    ∃ t, exec i s = .next t ∧ t.result.toNat < 2 ^ k := by
  refine ⟨_, hx.trans (hashCommand_of_le hk), ?_⟩
  rw [setResult_result, widenUnsigned, BitVec.toNat_setWidth_of_le (by decide)]
  exact shiftRight_toNat_lt_two_pow w hk

/-- Settles O28: each hash ends in a shift that leaves `k` bits. -/
theorem hashFitsInItsBitCount : Obligations.HashFitsInItsBitCount := by
  intro s k hk
  simp only [List.forall_mem_cons]
  exact ⟨exec_result_lt_of_hash rfl hk, exec_result_lt_of_hash rfl hk, exec_result_lt_of_hash rfl hk,
    exec_result_lt_of_hash rfl hk, List.forall_mem_nil _⟩

end Sys2Proof.Machine
end

section
/-! What a command that does not access the buffer reads (40_bitops.md R105, 30_encoding.md R84, 41_codec.md R153). -/

namespace Sys2Proof.Machine

/-- The command computes a value from the low bits of OPA and writes it to RESULT. -/
def WritesFunctionOfOpa (i : Instr) : Prop := ∃ f : Word64 → Word64, ∀ s, exec i s = writeResult (f s.opa) s

theorem WritesFunctionOfOpa.of_operandA {i : Instr} {n m : Nat} {widen : BitVec m → Word64} {f : BitVec n → BitVec m}
    (hx : ∀ s, exec i s = writeResult (widen (f (operandA n s))) s) : WritesFunctionOfOpa i :=
  ⟨fun a => widen (f (a.setWidth n)), hx⟩

/-- `exec_form` does not tell a hash from a value command by its bit count; this says which commands are which. -/
theorem writesFunctionOfOpa {i : Instr} (hb : accessBytes i = none) (hk : bitCount i = none) :
    WritesFunctionOfOpa i := by
  cases i with
  | foldU8 | foldS8 | foldU16 | foldS16 | foldU32 | foldS32 | foldU64 | foldS64 => exact .of_operandA fun _ => rfl
  | highbitU8 | highbitS8 | highbitU16 | highbitS16 | highbitU32 | highbitS32 | highbitU64 | highbitS64 =>
    exact .of_operandA fun _ => rfl
  | log2U32 | popcntU32 | popcntS32 => exact .of_operandA fun _ => rfl
  | swapU16 | swapS16 | swapU32 | swapS32 | swapU64 | swapS64 => exact .of_operandA fun _ => rfl
  | uhashU32 | uhashS32 | uhashU64 | uhashS64 => cases hk
  | _ => cases hb

/-- A command with a bit count is the hash of its three operands to that many bits. -/
theorem exists_hash_of_bitCount {i : Instr} {k : Nat} (hk : bitCount i = some k) :
    ∃ h : Word64 → Word64 → Word64 → Word32, ∀ s, exec i s = hashCommand k (h s.opa s.opb s.opc) s := by
  cases i with
  | uhashU32 | uhashS32 =>
    cases hk
    exact ⟨fun v a b => hash32 (v.setWidth 32) (a.setWidth 32) (b.setWidth 32) k, fun _ => rfl⟩
  | uhashU64 | uhashS64 =>
    cases hk
    exact ⟨fun v a b => hash64 (v.setWidth 64) (a.setWidth 64) (b.setWidth 64) k, fun _ => rfl⟩
  | _ => cases hk

/-- Settles O29: a value command is a function of OPA, and a hash one of its operands, in every state. -/
theorem bitOpsReadOnlyTheirOperands : Obligations.BitOpsReadOnlyTheirOperands := by
  intro i s hb
  cases hk : bitCount i with
  | none =>
    obtain ⟨f, hx⟩ := writesFunctionOfOpa hb hk
    exact ⟨setResult (f s.opa) s, hx s, .inl rfl, fun _ _ _ => hx _, fun _ _ _ => hx _⟩
  | some k =>
    obtain ⟨h, hx⟩ := exists_hash_of_bitCount hk
    rcases Nat.lt_or_ge 32 k with hgt | hle
    · exact ⟨raiseFault .range s, (hx s).trans (hashCommand_of_gt hgt), .inr ⟨⟨k, rfl, hgt⟩, rfl⟩,
        fun _ _ _ => (hx _).trans (hashCommand_of_gt hgt), nofun⟩
    · exact ⟨setResult (widenUnsigned (h s.opa s.opb s.opc)) s, (hx s).trans (hashCommand_of_le hle), .inl rfl,
        fun _ _ _ => (hx _).trans (hashCommand_of_le hle), nofun⟩

end Sys2Proof.Machine
end

section
/-! SWAP (41_codec.md R150, R153 to R158). -/

namespace Sys2Proof.Machine

/-- The first `k` turns of the swap fill the lowest `k` bytes, each with its mirror byte of `x` (41_codec.md R150). -/
theorem getLsbD_swapLow {n : Nat} (x : BitVec n) (b k i : Nat) :
    (swapLow x b k).getLsbD i =
      (decide (i < n) && decide (i < 8 * k) && x.getLsbD (8 * (b - 1 - i / 8) + i % 8)) := by
  induction k with
  | zero => simp [swapLow]
  | succ k ih =>
    rw [swapLow, BitVec.getLsbD_or, ih, BitVec.getLsbD_shiftLeft, BitVec.getLsbD_setWidth, BitVec.getLsbD_extractLsb']
    by_cases hn : i < n
    · by_cases hlow : i < 8 * k
      · simp [hlow, show i < 8 * (k + 1) by omega]
      · by_cases hbyte : i < 8 * (k + 1)
        · have hdiv : i / 8 = k := by omega
          have hmod : i - 8 * k = i % 8 := by omega
          simp [hn, hlow, hbyte, hdiv, hmod, Nat.mod_lt, show i % 8 < n by omega]
        · simp [hlow, hbyte, show ¬ i - 8 * k < 8 by omega]
    · simp [hn]

theorem getLsbD_swapBytes {b : Nat} (x : BitVec (8 * b)) {i : Nat} (hi : i < 8 * b) :
    (swapBytes x).getLsbD i = x.getLsbD (8 * (b - 1 - i / 8) + i % 8) := by
  rw [swapBytes, getLsbD_swapLow, Nat.mul_div_cancel_left b (by decide)]
  simp [hi]

theorem swapBytes_byte {b j : Nat} (x : BitVec (8 * b)) (hj : j < b) :
    (swapBytes x).extractLsb' (8 * j) 8 = x.extractLsb' (8 * (b - 1 - j)) 8 := by
  refine BitVec.eq_of_getLsbD_eq fun i hi => ?_
  have hdiv : (8 * j + i) / 8 = j := by omega
  have hmod : (8 * j + i) % 8 = i := by omega
  rw [BitVec.getLsbD_extractLsb', BitVec.getLsbD_extractLsb', getLsbD_swapBytes x (by omega), hdiv, hmod]

/-- The reversal of the bytes is its own inverse (41_codec.md R150). -/
theorem swapBytes_swapBytes {b : Nat} (x : BitVec (8 * b)) : swapBytes (swapBytes x) = x := by
  refine BitVec.eq_of_getLsbD_eq fun i hi => ?_
  have hback : 8 * (b - 1 - (8 * (b - 1 - i / 8) + i % 8) / 8) + (8 * (b - 1 - i / 8) + i % 8) % 8 = i := by omega
  rw [getLsbD_swapBytes _ hi, getLsbD_swapBytes _ (by omega), hback]

theorem operandA_byte {b j : Nat} (s : State) (hj : j < b) :
    (operandA (8 * b) s).extractLsb' (8 * j) 8 = byteOf s.opa j := by
  rw [extractLsb'_operandA s (by omega), byteOf_eq_ofNat]

theorem setWidth_widenUnsigned {n : Nat} (hn : n ≤ 64) (r : BitVec n) : (widenUnsigned r).setWidth n = r := by
  rw [widenUnsigned, BitVec.setWidth_setWidth_of_le _ hn, BitVec.setWidth_eq]

theorem setWidth_widenSigned {n : Nat} (hn : n ≤ 64) (r : BitVec n) : (widenSigned r).setWidth n = r := by
  refine BitVec.eq_of_getLsbD_eq fun i hi => ?_
  rw [widenSigned, BitVec.getLsbD_setWidth, BitVec.getLsbD_signExtend]
  simp [hi, show i < 64 by omega]

/-- A SWAP of `b` bytes (41_codec.md R153 to R158). -/
theorem exec_swap {b : Nat} {i : Instr} {widen : BitVec (8 * b) → Word64}
    (hx : ∀ s, exec i s = writeResult (widen (swapBytes (operandA (8 * b) s))) s) (s : State) :
    ∃ r : BitVec (8 * b), exec i s = .next { s with result := widen r } ∧
      ∀ j < b, r.extractLsb' (8 * j) 8 = byteOf s.opa (b - 1 - j) :=
  ⟨_, hx s, fun _ hj => (swapBytes_byte _ hj).trans (operandA_byte s (by omega))⟩

/-- Where widening keeps the low bits, a SWAP of the first SWAP's RESULT gives back the operand. -/
theorem exec_swap_twice {b : Nat} {i : Instr} {widen : BitVec (8 * b) → Word64}
    (hx : ∀ s, exec i s = writeResult (widen (swapBytes (operandA (8 * b) s))) s)
    (hwiden : ∀ r, (widen r).setWidth (8 * b) = r) (s : State) :
    ∃ t u, exec i s = .next t ∧ exec i { t with opa := t.result } = .next u ∧
      u.result = widen (s.opa.setWidth (8 * b)) := by
  refine ⟨_, _, hx s, hx _, congrArg widen ?_⟩
  calc swapBytes ((widen (swapBytes (operandA (8 * b) s))).setWidth (8 * b))
      = swapBytes (swapBytes (operandA (8 * b) s)) := by rw [hwiden]
    _ = s.opa.setWidth (8 * b) := swapBytes_swapBytes _

/-- Settles O30: the reversal and its involution at 2, 4 and 8 bytes, under either widening. -/
theorem swapCommands : Obligations.SwapCommands := by
  refine ⟨by and_intros <;> exact decode_of_encode rfl rfl, fun s => ⟨?u16, ?s16, ?u32, ?s32, ?u64, ?s64⟩,
    fun s => ⟨?twiceU16, ?twiceS16, ?twiceU32, ?twiceS32, ?twiceU64, ?twiceS64⟩⟩
  case u16 => exact exec_swap (b := 2) (widen := widenUnsigned) (fun _ => rfl) s
  case s16 => exact exec_swap (b := 2) (widen := widenSigned) (fun _ => rfl) s
  case u32 => exact exec_swap (b := 4) (widen := widenUnsigned) (fun _ => rfl) s
  case s32 => exact exec_swap (b := 4) (widen := widenSigned) (fun _ => rfl) s
  case u64 => exact exec_swap (b := 8) (widen := widenUnsigned) (fun _ => rfl) s
  case s64 => exact exec_swap (b := 8) (widen := widenSigned) (fun _ => rfl) s
  case twiceU16 => exact exec_swap_twice (b := 2) (fun _ => rfl) (setWidth_widenUnsigned (by decide)) s
  case twiceS16 => exact exec_swap_twice (b := 2) (fun _ => rfl) (setWidth_widenSigned (by decide)) s
  case twiceU32 => exact exec_swap_twice (b := 4) (fun _ => rfl) (setWidth_widenUnsigned (by decide)) s
  case twiceS32 => exact exec_swap_twice (b := 4) (fun _ => rfl) (setWidth_widenSigned (by decide)) s
  case twiceU64 => exact exec_swap_twice (b := 8) (fun _ => rfl) (setWidth_widenUnsigned (by decide)) s
  case twiceS64 => exact exec_swap_twice (b := 8) (fun _ => rfl) (setWidth_widenSigned (by decide)) s

end Sys2Proof.Machine
end

section
/-! WRITE and READ (41_codec.md R151, R152, R159 to R178). -/

namespace Sys2Proof.Machine

/-- A WRITE or READ whose checks fail changes nothing but the fault registers (41_codec.md R151). -/
theorem exec_of_checkBuffer_fault {i : Instr} {b : Nat} {s : State} {c : FaultCode} (hb : accessBytes i = some b)
    (hc : checkBuffer b s = some c) : exec i s = .next (raiseFault c s) := by
  cases exec_shape i s with
  | value _ _ hnone | hash _ _ _ hnone => rw [hnone] at hb; cases hb
  | store b' _ hx hb' =>
    obtain rfl : b' = b := Option.some.inj (hb'.symm.trans hb)
    exact hx.trans (writeCommand_of_fault hc)
  | load b' _ hx hb' =>
    obtain rfl : b' = b := Option.some.inj (hb'.symm.trans hb)
    exact hx.trans (readCommand_of_fault hc)

theorem exec_noBuf {i : Instr} {b : Nat} {s : State} (hb : accessBytes i = some b)
    (hlen : s.params.bufCap < s.bufLen.toNat) : exec i s = .next { s with status := 0x31, faultCmd := s.cmd } :=
  exec_of_checkBuffer_fault hb ((checkBuffer_noBuf_iff b s).2 hlen)

theorem exec_outOfBounds {i : Instr} {b : Nat} {s : State} (hb : accessBytes i = some b)
    (hout : accessOutOfBounds b s) : exec i s = .next { s with status := 0x41, faultCmd := s.cmd } :=
  exec_of_checkBuffer_fault hb ((checkBuffer_bounds_iff b s).2 hout)

/-- A WRITE of `b` bytes stores the low `8 * b` bits of OPA, whatever its type (41_codec.md R152, R159 to R168). -/
theorem exec_of_isWrite {i : Instr} {b : Nat} (hw : isWrite i = true) (hb : accessBytes i = some b) (s : State) :
    exec i s = writeCommand b (operandA (8 * b) s) s := by
  cases i with
  | writeU8 | writeS8 | writeU16 | writeS16 | writeU32 | writeS32 | writeU64 | writeS64 | writeF32 | writeF64 =>
    cases hb
    rfl
  | _ => cases hw

/-- A READ of `b` bytes loads `8 * b` bits and widens them by its S field (30_encoding.md R74, 41_codec.md R152, R169 to
R178). -/
theorem exec_of_isRead {i : Instr} {b : Nat} (hw : isWrite i = false) (hb : accessBytes i = some b) (s : State) :
    exec i s = readCommand b (if (commandFields i).signed = 1 then widenSigned (loadBE (8 * b) s.buf (bufStart s) b)
      else widenUnsigned (loadBE (8 * b) s.buf (bufStart s) b)) s := by
  cases i with
  | readU8 | readS8 | readU16 | readS16 | readU32 | readS32 | readU64 | readS64 | readF32 | readF64 =>
    cases hb
    rfl
  | writeU8 | writeS8 | writeU16 | writeS16 | writeU32 | writeS32 | writeU64 | writeS64 | writeF32 | writeF64 =>
    cases hw
  | _ => cases hb

/-- The buffer after StoreBE of OPA: its bytes in the span, and the old ones outside it (20_memory.md R54). -/
theorem read_storeBE_operandA {s : State} (hs : Memory.wf s.buf = true) (start b a : Nat) :
    Memory.read (storeBE s.buf start (operandA (8 * b) s) b) a =
      if start ≤ a ∧ a < start + b then byteOf s.opa (b - 1 - (a - start)) else Memory.read s.buf a := by
  rw [read_storeBE hs]
  split
  · rw [operandA_byte s (by omega)]
  · rfl

/-- Settles O31, from the table of the ten words and byte counts. -/
theorem writeCommands : Obligations.WriteCommands := by
  intro c hc
  obtain ⟨hwf, hword, hwrite, hbytes⟩ : c.1.wellFormed = true ∧ encode c.1 = c.2.2 ∧ isWrite c.1 = true ∧
      accessBytes c.1 = some c.2.1 := by
    revert c
    decide
  refine ⟨decode_of_encode hwf hword, fun s => ⟨exec_noBuf hbytes, exec_outOfBounds hbytes, fun hallowed => ?_⟩⟩
  have hcheck : checkBuffer c.2.1 s = none := (checkBuffer_none_iff _ s).2 hallowed
  exact ⟨_, (exec_of_isWrite hwrite hbytes s).trans (writeCommand_of_allowed hcheck),
    fun hs => ⟨storeBE_wf hs .., read_storeBE_operandA hs _ _⟩⟩

theorem bigEndianValue_succ (m : Memory) (start b : Nat) :
    bigEndianValue m start (b + 1) = 2 ^ 8 * bigEndianValue m start b + (Memory.read m (start + b)).toNat := by
  simp [bigEndianValue, List.range_succ]

theorem testBit_bigEndianValue (m : Memory) (start b i : Nat) :
    (bigEndianValue m start b).testBit i =
      (decide (i < 8 * b) && (Memory.read m (start + (b - 1 - i / 8))).getLsbD (i % 8)) := by
  induction b generalizing i with
  | zero => simp [bigEndianValue]
  | succ b ih =>
    rw [bigEndianValue_succ, Nat.testBit_two_pow_mul_add _ (BitVec.isLt _)]
    split
    · next hi =>
      have hdiv : i / 8 = 0 := by omega
      simp [BitVec.testBit_toNat, hdiv, Nat.mod_eq_of_lt hi, show i < 8 * (b + 1) by omega]
    · next hi =>
      have hdiv : b - 1 - (i - 8) / 8 = b + 1 - 1 - i / 8 := by omega
      have hmod : (i - 8) % 8 = i % 8 := by omega
      have hlt : i - 8 < 8 * b ↔ i < 8 * (b + 1) := by omega
      rw [ih, hdiv, hmod, decide_eq_decide.2 hlt]

theorem bigEndianValue_lt (m : Memory) (start b : Nat) : bigEndianValue m start b < 2 ^ (8 * b) := by
  refine Nat.lt_pow_two_of_testBit _ fun i hi => ?_
  rw [testBit_bigEndianValue, decide_eq_false (by omega), Bool.false_and]

/-- LoadBE gives the number that the bytes spell (20_memory.md R55). -/
theorem loadBE_eq_ofNat (n : Nat) (m : Memory) (start b : Nat) :
    loadBE n m start b = BitVec.ofNat n (bigEndianValue m start b) := by
  refine BitVec.eq_of_getLsbD_eq fun i _ => ?_
  rw [loadBE_getLsbD, BitVec.getLsbD_ofNat, testBit_bigEndianValue, Bool.and_assoc]

theorem widenUnsigned_loadBE (m : Memory) (start b : Nat) :
    widenUnsigned (loadBE (8 * b) m start b) = BitVec.ofNat 64 (bigEndianValue m start b) := by
  rw [loadBE_eq_ofNat, widenUnsigned_ofNat, Nat.mod_eq_of_lt (bigEndianValue_lt m start b)]

/-- Settles O32, from the table of the ten words, byte counts and signs. -/
theorem readCommands : Obligations.ReadCommands := by
  intro c hc
  obtain ⟨hwf, hword, hread, hbytes, hsign⟩ : c.1.wellFormed = true ∧ encode c.1 = c.2.2.1 ∧ isWrite c.1 = false ∧
      accessBytes c.1 = some c.2.1 ∧ ((commandFields c.1).signed = 1 ↔ c.2.2.2 = true) := by
    revert c
    decide
  refine ⟨decode_of_encode hwf hword, fun s => ⟨exec_noBuf hbytes, exec_outOfBounds hbytes, fun hallowed => ?_⟩⟩
  have hcheck : checkBuffer c.2.1 s = none := (checkBuffer_none_iff _ s).2 hallowed
  rw [exec_of_isRead hread hbytes, readCommand_of_allowed hcheck, widenUnsigned_loadBE, loadBE_eq_ofNat]
  simp only [hsign]
  rfl

end Sys2Proof.Machine
end

section
/-! A fault of a command word: its causes, and the fault latch over a run (60_exceptions.md R201 to R209). -/

namespace Sys2Proof.Machine

/-! ### The latch holds over a run without a reset (R208, R209) -/

theorem UnitRegistersKept.trans {s t u : State} (h : UnitRegistersKept s t) (h' : UnitRegistersKept t u) :
    UnitRegistersKept s u :=
  ⟨h'.cmd.trans h.cmd, h'.status.trans h.status, h'.result.trans h.result, h'.faultCmd.trans h.faultCmd⟩

/-- The fault latch is a bit of STATUS (10_state.md R27). -/
theorem faultBit_eq_of_status_eq {s t : State} (h : t.status = s.status) : faultBit t = faultBit s :=
  congrArg (fun x : Word32 => x.getLsbD 0) h

/-- Of the lines, only the reset input and an accepted command write the registers of the unit, and a faulted unit
accepts no command. -/
theorem hostEvent_of_faulted {e : HostEvent} {s t : State} (hf : faultBit s = true) (he : e ≠ .reset)
    (h : hostEvent e s = .next t) : UnitRegistersKept s t := by
  rcases hostEvent_cases h with ⟨hreset, _⟩ | ⟨w, _, hw⟩ | hkept
  · exact absurd hreset he
  · rw [commandWrite_of_faulted ((faultBit_logReply ..).trans hf)] at hw
    cases hw
    exact ⟨rfl, rfl, rfl, rfl⟩
  · exact hkept

theorem step_of_faulted {s : State} (hf : faultBit s = true) (hreset : .reset ∉ s.pending) :
    ∃ t, step s = .next t ∧ UnitRegistersKept s t ∧ .reset ∉ t.pending := by
  obtain ⟨t, ht, ⟨_, rfl⟩ | ⟨e, rest, hp, heffect⟩⟩ := step_answers s
  · exact ⟨t, ht, ⟨rfl, rfl, rfl, rfl⟩, hreset⟩
  obtain ⟨he, hrest⟩ : .reset ≠ e ∧ .reset ∉ rest := by simpa [hp] using hreset
  have hpending : t.pending = rest := heffect.runFrameKept.pending
  obtain ⟨hcmd, hstatus, hresult, hfaultCmd⟩ :=
    hostEvent_of_faulted ((faultBit_advance rest s).trans hf) he.symm ((step_cons hp).symm.trans ht)
  exact ⟨t, ht, ⟨hcmd, hstatus, hresult, hfaultCmd⟩, hpending ▸ hrest⟩

theorem runSteps_of_faulted (k : Nat) {s : State} (hf : faultBit s = true) (hreset : .reset ∉ s.pending) :
    ∃ t, runSteps k s = .next t ∧ UnitRegistersKept s t := by
  induction k generalizing s with
  | zero => exact ⟨s, rfl, rfl, rfl, rfl, rfl⟩
  | succ k ih =>
    obtain ⟨u, hu, hkept, hreset'⟩ := step_of_faulted hf hreset
    obtain ⟨t, ht, hkept'⟩ := ih ((faultBit_eq_of_status_eq hkept.status).trans hf) hreset'
    exact ⟨t, (runSteps_succ k hu).trans ht, hkept.trans hkept'⟩

/-- Settles O39, by induction on the length of the run; the latch is a bit of the STATUS that is kept. -/
theorem faultLatchHoldsUntilReset : Obligations.FaultLatchHoldsUntilReset := by
  refine ⟨fun s k hf hreset => ?run, fun s rest hp => ?reset⟩
  case run =>
    obtain ⟨t, ht, hkept⟩ := runSteps_of_faulted k hf hreset
    exact ⟨t, ht, (faultBit_eq_of_status_eq hkept.status).trans hf, hkept.status, hkept.faultCmd, hkept.cmd,
      hkept.result⟩
  case reset => exact ⟨hardReset (advance rest s), step_cons hp, hardReset_status _, hardReset_faultCmd _⟩

/-! ### The causes of a fault (R201 to R205) -/

/-- What makes the command word `w` raise a fault in the state `s`, and which one. -/
inductive FaultCause (w : Word32) (s : State) : FaultCode → Prop where
  /-- R201: the word does not decode. -/
  | illegal {e : DecodeReject} (hd : decode w = .error e) : FaultCause w s .illegal
  /-- R202: a UHASH of more than 32 bits. -/
  | range {i : Instr} {k : Nat} (hd : decode w = .ok i) (hk : bitCount i = some k) (hgt : 32 < k) :
      FaultCause w s .range
  /-- R203: an access to a buffer that does not exist. -/
  | noBuf {i : Instr} {b : Nat} (hd : decode w = .ok i) (hb : accessBytes i = some b)
      (hlen : s.params.bufCap < s.bufLen.toNat) : FaultCause w s .noBuf
  /-- R204: an access out of the bounds of an existing buffer. -/
  | bounds {i : Instr} {b : Nat} (hd : decode w = .ok i) (hb : accessBytes i = some b)
      (hout : accessOutOfBounds b s) : FaultCause w s .bounds

theorem commandWrite_of_cause {w : Word32} {s : State} {c : FaultCode} (hf : faultBit s = false)
    (h : FaultCause w s c) : commandWrite w s = .next (raiseFault c (latchCommand w s)) := by
  cases h with
  | illegal hd => exact commandWrite_of_decode_error hf hd
  | range hd hk hgt =>
    obtain ⟨_, hx⟩ := exists_hash_of_bitCount hk
    exact (commandWrite_of_decode_ok hf hd).trans ((hx _).trans (hashCommand_of_gt hgt))
  | noBuf hd hb hlen => exact (commandWrite_of_decode_ok hf hd).trans (exec_noBuf hb hlen)
  | bounds hd hb hout => exact (commandWrite_of_decode_ok hf hd).trans (exec_outOfBounds hb hout)

/-- A command that moves `b` bytes has one of the two causes where its checks fail (41_codec.md R151). -/
theorem checkBuffer_none_of_no_cause {w : Word32} {s : State} {i : Instr} {b : Nat} (hd : decode w = .ok i)
    (hb : accessBytes i = some b) (hnone : ∀ c, ¬FaultCause w s c) : checkBuffer b s = none := by
  rcases checkBuffer_cases b s with hc | hc | hc
  · exact hc
  · exact absurd (.noBuf hd hb ((checkBuffer_noBuf_iff b s).1 hc)) (hnone _)
  · exact absurd (.bounds hd hb ((checkBuffer_bounds_iff b s).1 hc)) (hnone _)

/-- A word without a cause completes and leaves STATUS alone. -/
theorem commandWrite_of_no_cause {w : Word32} {s : State} (hf : faultBit s = false)
    (hnone : ∀ c, ¬FaultCause w s c) : ∃ t, commandWrite w s = .next t ∧ t.status = s.status := by
  cases hd : decode w with
  | error e => exact absurd (.illegal hd) (hnone _)
  | ok i =>
    rw [commandWrite_of_decode_ok hf hd]
    cases exec_shape i (latchCommand w s) with
    | value v hx => exact ⟨_, hx, rfl⟩
    | hash k h hx _ hk =>
      have hle : k ≤ 32 := Nat.not_lt.1 fun hgt => hnone _ (.range hd hk hgt)
      exact ⟨_, hx.trans (hashCommand_of_le hle), rfl⟩
    | store b v hx hb =>
      have hcheck : checkBuffer b (latchCommand w s) = none := checkBuffer_none_of_no_cause (s := s) hd hb hnone
      exact ⟨_, hx.trans (writeCommand_of_allowed hcheck), rfl⟩
    | load b r hx hb =>
      have hcheck : checkBuffer b (latchCommand w s) = none := checkBuffer_none_of_no_cause (s := s) hd hb hnone
      exact ⟨_, hx.trans (readCommand_of_allowed hcheck), rfl⟩

theorem commandWrite_cause_or_kept (w : Word32) {s : State} (hf : faultBit s = false) :
    ∃ t, commandWrite w s = .next t ∧
      ((∃ c, FaultCause w s c ∧ t = raiseFault c (latchCommand w s)) ∨ t.status = s.status) := by
  by_cases h : ∃ c, FaultCause w s c
  · obtain ⟨c, hc⟩ := h
    exact ⟨_, commandWrite_of_cause hf hc, .inl ⟨c, hc, rfl⟩⟩
  · obtain ⟨t, ht, hkept⟩ := commandWrite_of_no_cause hf (not_exists.1 h)
    exact ⟨t, ht, .inr hkept⟩

theorem statusWord_inj {c d : FaultCode} : statusWord c = statusWord d ↔ c = d := by
  cases c <;> cases d <;> decide

/-- The word of a fault has the latch set, so no unfaulted STATUS holds it. -/
theorem status_ne_statusWord {s : State} (hf : faultBit s = false) (c : FaultCode) : s.status ≠ statusWord c := by
  intro h
  have hset : faultBit (raiseFault c s) = true := faultBit_raiseFault c s
  rw [faultBit_eq_of_status_eq (s := s) h.symm, hf] at hset
  cases hset

/-- A command write leaves the word of a fault in STATUS exactly where the fault has its cause. -/
theorem status_eq_statusWord_iff_cause {w : Word32} {s t : State} (hf : faultBit s = false)
    (ht : commandWrite w s = .next t) (c : FaultCode) : t.status = statusWord c ↔ FaultCause w s c := by
  constructor
  · intro hst
    obtain ⟨t', ht', ⟨d, hd, heq⟩ | hkept⟩ := commandWrite_cause_or_kept w hf
    · obtain rfl : t = t' := Host.Outcome.next.inj (ht.symm.trans ht')
      rw [heq, raiseFault_status] at hst
      exact statusWord_inj.1 hst ▸ hd
    · obtain rfl : t = t' := Host.Outcome.next.inj (ht.symm.trans ht')
      exact absurd (hkept.symm.trans hst) (status_ne_statusWord hf c)
  · intro hc
    rw [commandWrite_of_cause hf hc] at ht
    cases ht
    rfl

theorem faultCause_illegal_iff {w : Word32} {s : State} : FaultCause w s .illegal ↔ ∃ e, decode w = .error e :=
  ⟨fun | .illegal hd => ⟨_, hd⟩, fun ⟨_, hd⟩ => .illegal hd⟩

theorem faultCause_range_iff {w : Word32} {s : State} :
    FaultCause w s .range ↔ ∃ i k, decode w = .ok i ∧ bitCount i = some k ∧ 32 < k :=
  ⟨fun | .range hd hk hgt => ⟨_, _, hd, hk, hgt⟩, fun ⟨_, _, hd, hk, hgt⟩ => .range hd hk hgt⟩

theorem faultCause_noBuf_iff {w : Word32} {s : State} :
    FaultCause w s .noBuf ↔
      ∃ i b, decode w = .ok i ∧ accessBytes i = some b ∧ s.params.bufCap < s.bufLen.toNat :=
  ⟨fun | .noBuf hd hb hlen => ⟨_, _, hd, hb, hlen⟩, fun ⟨_, _, hd, hb, hlen⟩ => .noBuf hd hb hlen⟩

theorem faultCause_bounds_iff {w : Word32} {s : State} :
    FaultCause w s .bounds ↔ ∃ i b, decode w = .ok i ∧ accessBytes i = some b ∧ accessOutOfBounds b s :=
  ⟨fun | .bounds hd hb hout => ⟨_, _, hd, hb, hout⟩, fun ⟨_, _, hd, hb, hout⟩ => .bounds hd hb hout⟩

theorem faultNumber_mem (c : FaultCode) : (faultNumber c).setWidth 32 ∈ ([1, 2, 3, 4] : List Word32) := by
  cases c <;> decide

/-- Settles O10: a fault is entered by its cause, and each code's word in STATUS tells its cause. -/
theorem faultCausesAndEntry : Obligations.FaultCausesAndEntry := by
  intro s w rest hf hp
  have hf' : faultBit (afterReply .done rest s) = false := (faultBit_afterReply ..).trans hf
  obtain ⟨t, ht, hcases⟩ := commandWrite_cause_or_kept w hf'
  have hstatus := status_eq_statusWord_iff_cause hf' ht
  refine ⟨t, (step_write_cmd hp).trans ht, fun hft => ?entry, (hstatus .illegal).trans faultCause_illegal_iff,
    (hstatus .range).trans faultCause_range_iff, (hstatus .noBuf).trans faultCause_noBuf_iff,
    (hstatus .bounds).trans faultCause_bounds_iff⟩
  case entry =>
    obtain ⟨c, _, rfl⟩ | hkept := hcases
    · exact ⟨_, faultNumber_mem c, rfl⟩
    · rw [faultBit_eq_of_status_eq hkept, hf'] at hft
      cases hft

/-! ### The list of the illegal words (R201) -/

/-- The values of OP (30_encoding.md R73): the reserved ones, and one for each operation. -/
theorem reserved_or_operation : ∀ op : BitVec 4,
    (op = 0x0 ∨ op = 0x7 ∨ op = 0xA ∨ op = 0xB ∨ op = 0xC ∨ op = 0xD ∨ op = 0xE ∨ op = 0xF) ∨
    op = 0x1 ∨ op = 0x2 ∨ op = 0x3 ∨ op = 0x4 ∨ op = 0x5 ∨ op = 0x6 ∨ op = 0x8 ∨ op = 0x9 := by decide

theorem bit_eq_one_iff_ne_zero : ∀ bit : BitVec 1, bit = 1 ↔ ¬bit = 0 := by decide

theorem width_below_32_iff : ∀ width : BitVec 2, width = 0 ∨ width = 1 ↔ ¬(width = 2 ∨ width = 3) := by decide

/-- R201's list is the complement of R78's table: an item of the list says, field by field, what a row of the table
denies. Once the operation is known only the items and the row of its own are left. -/
theorem illegalWord_iff_not_legalCombination (w : Word32) : illegalWord w ↔ ¬legalCombination w = true := by
  simp only [illegalWord, legalCombination, Bool.and_eq_true, Bool.or_eq_true, decide_eq_true_eq,
    bit_eq_one_iff_ne_zero, width_below_32_iff]
  rcases reserved_or_operation (opField w) with hreserved | hop | hop | hop | hop | hop | hop | hop | hop
  · refine iff_of_true (.inl hreserved) ?_
    rcases hreserved with hop | hop | hop | hop | hop | hop | hop | hop <;> simp [hop]
  all_goals
    simp [hop]
    tauto

theorem decode_error_iff_illegalWord (w : Word32) : (∃ e, decode w = .error e) ↔ illegalWord w := by
  rw [illegalWord_iff_not_legalCombination, ← legalWordsAreTheCombinations w]
  cases decode w <;> simp

/-- Settles O9: E_ILLEGAL is raised where the word does not decode, and those words are on the list. -/
theorem illegalWordsRaiseIllegal : Obligations.IllegalWordsRaiseIllegal := by
  refine ⟨fun s w rest hf hp => ?_, decode_error_iff_illegalWord, .inl (.inl rfl)⟩
  obtain ⟨t, ht, _, hillegal, _⟩ := faultCausesAndEntry s w rest hf hp
  exact ⟨t, ht, hillegal.trans (decode_error_iff_illegalWord w)⟩

end Sys2Proof.Machine
end

section
/-! What stays accessible while the latch is set, and what no transaction reaches (60_exceptions.md R208, R216). -/

namespace Sys2Proof.Machine

/-- Settles O11: the latch is asked for on a write to CMD alone; the other transactions are as in any state. -/
theorem faultedUnitIgnoresCommands : Obligations.FaultedUnitIgnoresCommands := by
  intro s hf
  refine ⟨fun w rest => ?cmd, fun r rest => step_read_reg r, fun v rest => ?opa, fun v rest => ?opb, fun v rest => ?opc,
    fun v rest => ?start, fun v rest => ?bufLen, fun a rest => ?readByte, fun a v rest => ?writeByte⟩
  case cmd => exact fun hp => (step_write_cmd hp).trans (commandWrite_of_faulted ((faultBit_afterReply ..).trans hf))
  case opa => exact step_write_reg64 .opa rfl
  case opb => exact step_write_reg64 .opb rfl
  case opc => exact step_write_reg64 .opc rfl
  case start =>
    obtain ⟨_, _, _, hstart, _⟩ := registerWritesTakeEffect s rest 0 v
    exact hstart
  case bufLen =>
    obtain ⟨_, _, _, _, hbufLen, _⟩ := registerWritesTakeEffect s rest 0 v
    exact hbufLen
  case readByte =>
    obtain ⟨hread, _⟩ := bufferWindowTransactions s rest a
    exact hread
  case writeByte =>
    obtain ⟨_, hwrite, _⟩ := bufferWindowTransactions s rest a
    exact hwrite v

theorem portTarget_eq_byte_iff {p : Params} {addr width a : Nat} :
    portTarget p addr width = some (.byte a) ↔ addr = p.bmuBase + bufWindow + a ∧ width = 8 ∧ a < p.bufCap := by
  constructor
  · intro h
    have ha := portTarget_byte_lt h
    unfold portTarget at h
    split at h
    · cases h
    split at h
    · simp at h
    split at h
    · simp only [Option.some.injEq, PortTarget.byte.injEq] at h
      omega
    · cases h
  · rintro ⟨rfl, rfl, ha⟩
    exact portTarget_bufferByte ha

/-- Settles O15: a transaction that reaches neither a register nor a byte reaches nothing. -/
theorem busErrorsChangeNothing : Obligations.BusErrorsChangeNothing := by
  intro s rest addr width hreg hbyte
  have hnone : portTarget s.params addr width = none := by
    match ht : portTarget s.params addr width with
    | none => rfl
    | some (.reg r) => exact absurd (portTarget_eq_reg_iff.1 ht) (hreg r)
    | some (.byte a) =>
      obtain ⟨haddr, hwidth, ha⟩ := portTarget_eq_byte_iff.1 ht
      exact absurd ⟨haddr, hwidth⟩ (hbyte a ha)
  exact ⟨step_read_of_portTarget_none hnone, fun _ => step_write_of_portTarget_none hnone⟩

end Sys2Proof.Machine
end

section
/-! Reset, the launch state and the idle machine (70_reset_and_hazards.md R230 to R234). -/

namespace Sys2Proof.Machine

/-- Settles O16, by the step on a reset line and the launch state. -/
theorem hardwareResetSetsEveryRegister : Obligations.HardwareResetSetsEveryRegister :=
  ⟨fun s _ hp => ⟨s.txIndex + 1, s.replies, step_cons hp⟩, fun _ _ => ⟨[], 0, [], rfl⟩⟩

/-- Settles O18, by the step without a line. -/
theorem idleStepChangesNothing : Obligations.IdleStepChangesNothing :=
  fun _ hp => step_nil hp

@[simp] theorem faultBit_launch (p : Params) (image : Memory) : faultBit (State.launch p image) = false :=
  (by decide : BitVec.getLsbD (0 : Word32) 0 = false)

theorem invariant_launch {p : Params} {image : Memory} (hp : p.legal = true) (hw : Memory.wf image = true)
    (hc : image.all (fun c => decide (c.1 < p.bufCap)) = true) : invariant (State.launch p image) = true := by
  have hstatus : statusLegal (State.launch p image) = true := by simp [statusLegal]
  have hlatch : latchConsistent (State.launch p image) = true := by simp [latchConsistent]
  exact (invariant_iff _).2 ⟨hp, hstatus, hlatch, hw, hc⟩

/-- Settles O19: the state after power-on is a launch state, with the default parameters and the blank image. -/
theorem resetMeetsTheInvariant : Obligations.ResetMeetsTheInvariant :=
  ⟨invariant_launch (by decide) reset_buf_wf rfl, fun _ _ => invariant_launch⟩

end Sys2Proof.Machine
end

section
/-! Runs over the host's list (70_reset_and_hazards.md R239 to R241): the two inductions, over the number of steps and over
the list, said once. -/

namespace Sys2Proof.Machine

/-- What every step keeps holds after a run of any length. -/
theorem runSteps_keeps {I : State → Prop} (hstep : ∀ s t, step s = .next t → I s → I t) (k : Nat) {s : State}
    (hs : I s) : ∃ t, runSteps k s = .next t ∧ I t := by
  induction k generalizing s with
  | zero => exact ⟨s, rfl, hs⟩
  | succ k ih =>
    obtain ⟨u, hu, _⟩ := step_answers s
    obtain ⟨t, ht, hI⟩ := ih (hstep s u hu hs)
    exact ⟨t, (runSteps_succ k hu).trans ht, hI⟩

theorem runToEnd_nil {s : State} (hp : s.pending = []) : runToEnd s = .next s := by
  rw [runToEnd, hp, List.length_nil, runSteps_zero]

/-- A line is taken off the list whatever its effect is, so the rest of the run is the run of the next state. -/
theorem runToEnd_cons {s t : State} {e : HostEvent} {rest : List HostEvent} (hp : s.pending = e :: rest)
    (ht : hostEvent e (advance rest s) = .next t) : t.pending = rest ∧ runToEnd s = runToEnd t := by
  obtain ⟨t', ht', he⟩ := hostEvent_effect e (advance rest s)
  obtain rfl : t = t' := Host.Outcome.next.inj (ht.symm.trans ht')
  have hrest : t.pending = rest := he.runFrameKept.pending
  refine ⟨hrest, ?_⟩
  rw [runToEnd, hp, List.length_cons, runSteps_succ _ ((step_cons hp).trans ht), runToEnd, hrest]

/-- A relation of the start of a run to its end, by induction on the host's list. -/
theorem runToEnd_relates {R : State → State → Prop} (hnil : ∀ s, s.pending = [] → R s s)
    (hcons : ∀ s e rest u t, s.pending = e :: rest → hostEvent e (advance rest s) = .next u → u.pending = rest →
      R u t → R s t) (s : State) : ∃ t, runToEnd s = .next t ∧ R s t := by
  induction hp : s.pending generalizing s with
  | nil => exact ⟨s, runToEnd_nil hp, hnil s hp⟩
  | cons e rest ih =>
    obtain ⟨u, hu, _⟩ := hostEvent_effect e (advance rest s)
    obtain ⟨hrest, hrun⟩ := runToEnd_cons hp hu
    obtain ⟨t, ht, hR⟩ := ih u hrest
    exact ⟨t, hrun.trans ht, hcons s e rest u t hp hu hrest hR⟩

/-- Settles O37: every line is answered, and the run takes as many steps as there are lines. -/
theorem runsComplete : Obligations.RunsComplete := by
  refine ⟨fun s => ?step, fun s => ?run⟩
  case step =>
    obtain ⟨t, ht, _⟩ := step_answers s
    exact ⟨t, ht⟩
  case run =>
    exact runToEnd_relates (R := fun _ t => t.pending = []) (fun _ hp => hp) (fun _ _ _ _ _ _ _ _ hend => hend) s

end Sys2Proof.Machine
end

section
/-! RESULT: which command changes it (70_reset_and_hazards.md R237). -/

namespace Sys2Proof.Machine

theorem exec_result_of_isWrite {i : Instr} {s t : State} (hw : isWrite i = true) (h : exec i s = .next t) :
    t.result = s.result := by
  cases exec_shape i s with
  | value _ _ _ _ hnot | hash _ _ _ _ _ hnot | load _ _ _ _ _ hnot => rw [hnot] at hw; cases hw
  | store b v hx =>
    rw [hx] at h
    cases hc : checkBuffer b s with
    | none => rw [writeCommand_of_allowed hc] at h; cases h; rfl
    | some c => rw [writeCommand_of_fault hc] at h; cases h; rfl

/-- A command leaves RESULT, or it is no WRITE and raises no fault. -/
theorem exec_result_cases {i : Instr} {s t : State} (h : exec i s = .next t) :
    t.result = s.result ∨ (isWrite i = false ∧ faultBit t = faultBit s) := by
  cases hw : isWrite i with
  | true => exact .inl (exec_result_of_isWrite hw h)
  | false =>
    cases exec_commandEffect h with
    | result v => exact .inr ⟨rfl, faultBit_setResult v s⟩
    | stored b v _ => exact .inl rfl
    | faulted c _ => exact .inl rfl

theorem commandWrite_result_cases {w : Word32} {s t : State} (h : commandWrite w s = .next t) :
    t.result = s.result ∨
      (faultBit s = false ∧ ∃ i, decode w = .ok i ∧ isWrite i = false ∧ faultBit t = false) := by
  rcases commandWrite_cases w s with ⟨_, hx⟩ | ⟨hf, i, hd, hx⟩ | ⟨_, _, _, hx⟩
  · rw [hx] at h; cases h; exact .inl rfl
  · rcases exec_result_cases (hx.symm.trans h) with hkept | ⟨hw, hft⟩
    · exact .inl hkept
    · exact .inr ⟨hf, i, hd, hw, hft.trans hf⟩
  · rw [hx] at h; cases h; exact .inl rfl

/-- Settles O41: of the lines, only the reset input and a write to CMD reach RESULT. -/
theorem resultChangesOnlyByACompletedCommand : Obligations.ResultChangesOnlyByACompletedCommand := by
  intro s
  obtain ⟨t, ht, ⟨_, rfl⟩ | ⟨e, rest, hp, _⟩⟩ := step_answers s
  · exact ⟨t, ht, fun hne => absurd rfl hne⟩
  refine ⟨t, ht, fun hne => ?_⟩
  rcases hostEvent_cases ((step_cons hp).symm.trans ht) with ⟨rfl, _⟩ | ⟨w, rfl, hw⟩ | hkept
  · exact .inl ⟨rest, hp⟩
  · rcases commandWrite_result_cases hw with hkept | ⟨hf, i, hd, hnot, hft⟩
    · exact absurd hkept hne
    · exact .inr ⟨w, rest, i, hp, hf, hd, hnot, hft⟩
  · exact absurd hkept.result hne

end Sys2Proof.Machine
end

section
/-! BUFLEN = 0: no access is in bounds, and only a write to BUFLEN ends it (70_reset_and_hazards.md R234). -/

namespace Sys2Proof.Machine

/-- A buffer of length 0 exists and has no byte (60_exceptions.md R204). -/
theorem accessOutOfBounds_of_bufLen_zero {s : State} (h : s.bufLen = 0) (b : Nat) : accessOutOfBounds b s := by
  have hlen : s.bufLen.toNat = 0 := congrArg BitVec.toNat h
  unfold accessOutOfBounds
  omega

/-- A WRITE or READ has no bit count that could be out of range. -/
theorem wellFormed_of_accessBytes {i : Instr} {b : Nat} (hb : accessBytes i = some b) : i.wellFormed = true := by
  cases exec_shape i State.reset with
  | value _ _ hnone | hash _ _ _ hnone => rw [hnone] at hb; cases hb
  | store _ _ _ _ hk | load _ _ _ _ hk => rw [wellFormed_eq_bitCountFits, hk]; rfl

theorem step_access_of_bufLen_zero {s : State} {i : Instr} {b : Nat} {rest : List HostEvent} (hlen : s.bufLen = 0)
    (hf : faultBit s = false) (hb : accessBytes i = some b)
    (hp : s.pending = .write s.params.bmuBase 32 (encode i) :: rest) :
    step s = .next (raiseFault .bounds (latchCommand (encode i) (afterReply .done rest s))) := by
  have hd : decode (encode i) = .ok i := decode_of_encode (wellFormed_of_accessBytes hb) rfl
  have hcause : FaultCause (encode i) (afterReply .done rest s) .bounds :=
    .bounds hd hb (accessOutOfBounds_of_bufLen_zero hlen b)
  exact (step_write_cmd hp).trans (commandWrite_of_cause ((faultBit_afterReply ..).trans hf) hcause)

/-- Only the reset input, which clears it, and a write to it change BUFLEN. -/
theorem hostEvent_bufLen_cases {e : HostEvent} {s t : State} (h : hostEvent e s = .next t) :
    t.bufLen = s.bufLen ∨ t.bufLen = 0 ∨ ∃ v : Word32, e = .write (s.params.bmuBase + 0x02C) 32 v := by
  cases e with
  | read addr width =>
    obtain ⟨r, hr, _⟩ := hostRead_reply addr width s
    rw [hostEvent, hr] at h
    cases h
    exact .inl rfl
  | write addr width data =>
    simp only [hostEvent, hostWrite] at h
    split at h
    · next r hp =>
      cases r with
      | cmd =>
        obtain ⟨_, _, _, _, hkept, _⟩ := (commandWriteEffect_of_next h).operandsKept
        exact .inl hkept
      | bufLen =>
        obtain ⟨rfl, hwidth⟩ := portTarget_eq_reg_iff.1 hp
        obtain rfl : width = 32 := hwidth
        exact .inr (.inr ⟨data, rfl⟩)
      | _ => cases h; exact .inl rfl
    · cases h; exact .inl rfl
    · cases h; exact .inl rfl
  | reset => cases h; exact .inr (.inl rfl)

/-- BUFLEN is 0 and the host's list holds no write to it. -/
def BufLenStaysZero (s : State) : Prop :=
  s.bufLen = 0 ∧ ∀ v : Word32, .write (s.params.bmuBase + 0x02C) 32 v ∉ s.pending

theorem step_keeps_bufLenStaysZero (s t : State) (ht : step s = .next t) (h : BufLenStaysZero s) :
    BufLenStaysZero t := by
  obtain ⟨hlen, hnone⟩ := h
  rcases step_effect ht with ⟨_, rfl⟩ | ⟨e, rest, hp, he⟩
  · exact ⟨hlen, hnone⟩
  obtain ⟨hpending, _, hparams⟩ : RunFrameKept (advance rest s) t := he.runFrameKept
  rw [hp] at hnone
  refine ⟨?zero, fun v hv => ?stays⟩
  case zero =>
    rcases hostEvent_bufLen_cases ((step_cons hp).symm.trans ht) with hkept | hzero | ⟨v, rfl⟩
    · exact hkept.trans hlen
    · exact hzero
    · exact absurd List.mem_cons_self (hnone v)
  case stays =>
    rw [hpending, hparams] at hv
    exact hnone v (List.mem_cons_of_mem _ hv)

/-- Settles O17: an access to a buffer of length 0 is out of bounds, and the length is kept by every step until it is
written. -/
theorem powerOnStateAcceptsNoAccess : Obligations.PowerOnStateAcceptsNoAccess := by
  refine ⟨fun p image => ⟨launch_bufLen p image, faultBit_launch p image⟩,
    fun s i b rest hlen hf hb hp => step_access_of_bufLen_zero hlen hf hb hp, fun s k hlen hnone => ?run⟩
  case run =>
    obtain ⟨t, ht, hzero, _⟩ := runSteps_keeps step_keeps_bufLenStaysZero k (s := s) ⟨hlen, hnone⟩
    exact ⟨t, ht, hzero⟩

end Sys2Proof.Machine
end

section
/-! The outcome of a run (70_reset_and_hazards.md R241). -/

namespace Sys2Proof.Machine

theorem outcomeOf_reads (s : State) : (outcomeOf s).reads = s.replies.filter isReadReply := rfl

/-- A read adds its reply to the outcome. -/
theorem hostRead_reads (addr width : Nat) (s : State) :
    ∃ r, hostRead addr width s = logReply r s ∧ (outcomeOf (logReply r s)).reads = (outcomeOf s).reads ++ [r] := by
  obtain ⟨r, hr, hread⟩ := hostRead_reply addr width s
  refine ⟨r, hr, ?_⟩
  rw [outcomeOf_reads, logReply_replies, List.filter_append, List.filter_cons_of_pos hread, List.filter_nil,
    outcomeOf_reads]

/-- A write, refused or not, and a reset add nothing to it. -/
theorem hostEvent_reads_of_not_read {e : HostEvent} {s t : State} (he : isReadEvent e = false)
    (h : hostEvent e s = .next t) : (outcomeOf t).reads = (outcomeOf s).reads := by
  cases e with
  | read addr width => cases he
  | write addr width data =>
    obtain ⟨r, hr, hwrite⟩ := hostWrite_reply h
    rw [outcomeOf_reads, hr, List.filter_append, List.filter_cons_of_neg (by simp [hwrite]), List.filter_nil,
      List.append_nil, outcomeOf_reads]
  | reset => cases h; rfl

/-- The run from `s` to `t` adds one entry to the outcome for each read of the list of `s`. -/
def AddsOneEntryForEachRead (s t : State) : Prop :=
  ∃ values, (outcomeOf t).reads = (outcomeOf s).reads ++ values ∧
    values.length = (s.pending.filter isReadEvent).length

theorem AddsOneEntryForEachRead.of_event {s u t : State} {e : HostEvent} {rest : List HostEvent}
    (hp : s.pending = e :: rest) (hu : hostEvent e (advance rest s) = .next u) (hrest : u.pending = rest)
    (h : AddsOneEntryForEachRead u t) : AddsOneEntryForEachRead s t := by
  obtain ⟨values, ht, hlength⟩ := h
  rw [hrest] at hlength
  unfold AddsOneEntryForEachRead
  rw [hp]
  cases hread : isReadEvent e with
  | true =>
    cases e with
    | read addr width =>
      obtain ⟨r, hr, hadd⟩ := hostRead_reads addr width (advance rest s)
      obtain rfl : logReply r (advance rest s) = u := hr.symm.trans (Host.Outcome.next.inj hu)
      refine ⟨r :: values, ?_, by rw [List.filter_cons_of_pos hread, List.length_cons, List.length_cons, hlength]⟩
      rw [ht, hadd, List.append_assoc]
      rfl
    | write | reset => cases hread
  | false =>
    have hkept : (outcomeOf u).reads = (outcomeOf s).reads := hostEvent_reads_of_not_read (s := advance rest s) hread hu
    exact ⟨values, by rw [ht, hkept], by rw [List.filter_cons_of_neg (by simp [hread]), hlength]⟩

theorem runToEnd_addsOneEntryForEachRead (s : State) : ∃ t, runToEnd s = .next t ∧ AddsOneEntryForEachRead s t :=
  runToEnd_relates (fun s hp => ⟨[], (List.append_nil _).symm, by rw [hp]; rfl⟩)
    (fun _ _ _ _ _ hp hu hrest => .of_event hp hu hrest) s

theorem outcomeOf_image_getElem? {s : State} {a : Nat} (ha : a < s.params.bufCap) :
    (outcomeOf s).image[a]? = some (Memory.read s.buf a) := by
  simp [outcomeOf, ha]

/-- Settles O46: each line adds the reply of its read or nothing, and the run is an induction on the list. -/
theorem outcomeHoldsOneEntryForEachRead : Obligations.OutcomeHoldsOneEntryForEachRead := by
  refine ⟨fun s addr width rest hp => ?read, fun s addr width v rest hp => ?other, fun s => ?run,
    fun s => ⟨rfl, by simp [outcomeOf], fun a => outcomeOf_image_getElem?⟩⟩
  case read =>
    obtain ⟨r, hr, hadd⟩ := hostRead_reads addr width (advance rest s)
    exact ⟨r, (step_cons hp).trans (congrArg _ hr), hadd⟩
  case other =>
    obtain ⟨e, he, hp⟩ : ∃ e, isReadEvent e = false ∧ s.pending = e :: rest := by
      rcases hp with hp | hp
      · exact ⟨_, rfl, hp⟩
      · exact ⟨_, rfl, hp⟩
    obtain ⟨t, ht, _⟩ := hostEvent_effect e (advance rest s)
    exact ⟨t, (step_cons hp).trans ht, hostEvent_reads_of_not_read (s := advance rest s) he ht⟩
  case run =>
    obtain ⟨t, ht, values, hreads, hlength⟩ := runToEnd_addsOneEntryForEachRead s
    exact ⟨t, values, ht, hreads, hlength⟩

end Sys2Proof.Machine
end
